-- ==== Sys2Proof/Word.lean ====
section
/-! DEFINITION. The word types of the block. -/

namespace Sys2Proof

/-- A host register or a command word: XLEN = 64 bits (00_scope.md R8, R10). -/
abbrev Word := BitVec 64

/-- One byte of the code buffer BUF (20_memory.md R60). -/
abbrev Byte := BitVec 8

end Sys2Proof
end

