-- ==== Sys2Proof/Syntax.lean ====
section
/-! DEFINITION. The commands of the block: one constructor per row of the opcode table (30_encoding.md R81). -/

namespace Sys2Proof

/-- A command. `ch` is the field CH and `code` the field CODE of the command word (30_encoding.md R80), both unsigned
numbers; every other operand is in ARG0..ARG4. `openStream` is OPEN. -/
inductive Instr where
  | openStream
  | total
  | addrOf
  | indexOf
  | byteRange
  | reset (ch : Nat)
  | decode (ch code : Nat)
  | unpackInit
  | nextCode
  | decodeNext (ch : Nat)
  deriving DecidableEq, Repr

end Sys2Proof
end

