-- ==== Sys2Proof/WellFormed.lean ====
section
/-! DEFINITION. Which commands a command word can hold. -/

namespace Sys2Proof

/-- CH is 16 bits and CODE 5 bits, both unsigned (30_encoding.md R80). Whether the channel exists and whether the code
is below 2^B is checked when the command runs (30_encoding.md R82), since C and B are state. -/
abbrev Instr.WellFormed : Instr → Prop
  | .openStream => True
  | .total => True
  | .addrOf => True
  | .indexOf => True
  | .byteRange => True
  | .reset ch => ch < 2 ^ 16
  | .decode ch code => ch < 2 ^ 16 ∧ code < 2 ^ 5
  | .unpackInit => True
  | .nextCode => True
  | .decodeNext ch => ch < 2 ^ 16

end Sys2Proof
end

