-- ==== Sys2Proof/Decode.lean ====
section
/-! DEFINITION. From command words to commands and back (30_encoding.md R80 to R84). -/

namespace Sys2Proof

/-- `w[hi:lo]` as an unsigned number (00_scope.md R11). -/
def field (w : Word) (hi lo : Nat) : Nat :=
  (w.toNat >>> lo) % 2 ^ (hi + 1 - lo)

/-- Why a word is illegal: the first of the four checks of 30_encoding.md R82 that it does not pass. -/
inductive Illegal where
  | reservedOp
  | reservedField
  | codeField
  | chField
  deriving DecidableEq, Repr

/-- What a word decodes to. -/
inductive Decoded where
  | command (i : Instr)
  | illegal (why : Illegal)
  deriving DecidableEq, Repr

/-- The command of an opcode with the fields CH and CODE (30_encoding.md R81); none for a reserved opcode. -/
def commandOf (op ch code : Nat) : Option Instr :=
  match op with
  | 0x1 => some .openStream
  | 0x2 => some .total
  | 0x3 => some .addrOf
  | 0x4 => some .indexOf
  | 0x5 => some .byteRange
  | 0x6 => some (.reset ch)
  | 0x7 => some (.decode ch code)
  | 0x8 => some .unpackInit
  | 0x9 => some .nextCode
  | 0xA => some (.decodeNext ch)
  | _ => none

/-- Whether the command of this opcode has the field CODE (30_encoding.md R80). -/
def opHasCode (op : Nat) : Bool := op == 0x7

/-- Whether the command of this opcode has the field CH (30_encoding.md R80). -/
def opHasCh (op : Nat) : Bool := op == 0x6 || op == 0x7 || op == 0xA

/-- The decoder of command words: the checks of 30_encoding.md R82 in the order written there. -/
def decode (w : Word) : Decoded :=
  let op := field w 3 0
  let code := field w 12 8
  let ch := field w 31 16
  match commandOf op ch code with
  | none => .illegal .reservedOp
  | some i =>
    if field w 7 4 ≠ 0 ∨ field w 15 13 ≠ 0 ∨ field w 63 32 ≠ 0 then .illegal .reservedField
    else if opHasCode op = false ∧ code ≠ 0 then .illegal .codeField
    else if opHasCh op = false ∧ ch ≠ 0 then .illegal .chField
    else .command i

/-- The opcode OP of a command (30_encoding.md R81). -/
def opcode : Instr → Nat
  | .openStream => 0x1
  | .total => 0x2
  | .addrOf => 0x3
  | .indexOf => 0x4
  | .byteRange => 0x5
  | .reset _ => 0x6
  | .decode _ _ => 0x7
  | .unpackInit => 0x8
  | .nextCode => 0x9
  | .decodeNext _ => 0xA

/-- The number the command puts in the field CH: 0 where it has none (30_encoding.md R80). -/
def chField : Instr → Nat
  | .openStream => 0
  | .total => 0
  | .addrOf => 0
  | .indexOf => 0
  | .byteRange => 0
  | .reset ch => ch
  | .decode ch _ => ch
  | .unpackInit => 0
  | .nextCode => 0
  | .decodeNext ch => ch

/-- The number the command puts in the field CODE: 0 where it has none (30_encoding.md R80). -/
def codeField : Instr → Nat
  | .openStream => 0
  | .total => 0
  | .addrOf => 0
  | .indexOf => 0
  | .byteRange => 0
  | .reset _ => 0
  | .decode _ code => code
  | .unpackInit => 0
  | .nextCode => 0
  | .decodeNext _ => 0

/-- The word of a well-formed command: OP in bits 3:0, CODE in 12:8, CH in 31:16, zeros elsewhere (30_encoding.md R80;
the expansions of R87 write the same sums). -/
def encode (i : Instr) : Word :=
  BitVec.ofNat 64 (opcode i + codeField i * 2 ^ 8 + chField i * 2 ^ 16)

/-- One row of spec/opcode_table.json: a word w is the command when (w AND mask) = match (30_encoding.md R82). -/
structure OpcodeRow where
  mnemonic : String
  mask     : Word
  pattern  : Word
  deriving DecidableEq, Repr

/-- The rows of spec/opcode_table.json, in its order. -/
def opcodeTable : List OpcodeRow :=
  [ ⟨"OPEN", 0xFFFFFFFFFFFFFFFF, 0x1⟩,
    ⟨"TOTAL", 0xFFFFFFFFFFFFFFFF, 0x2⟩,
    ⟨"ADDR_OF", 0xFFFFFFFFFFFFFFFF, 0x3⟩,
    ⟨"INDEX_OF", 0xFFFFFFFFFFFFFFFF, 0x4⟩,
    ⟨"BYTE_RANGE", 0xFFFFFFFFFFFFFFFF, 0x5⟩,
    ⟨"RESET", 0xFFFFFFFF0000FFFF, 0x6⟩,
    ⟨"DECODE", 0xFFFFFFFF0000E0FF, 0x7⟩,
    ⟨"UNPACK_INIT", 0xFFFFFFFFFFFFFFFF, 0x8⟩,
    ⟨"NEXT_CODE", 0xFFFFFFFFFFFFFFFF, 0x9⟩,
    ⟨"DECODE_NEXT", 0xFFFFFFFF0000FFFF, 0xA⟩ ]

/-- The row that covers a word. -/
def OpcodeRow.covers (r : OpcodeRow) (w : Word) : Bool := w &&& r.mask == r.pattern

/-- The mnemonic of a command, as spec/opcode_table.json spells it. -/
def mnemonic : Instr → String
  | .openStream => "OPEN"
  | .total => "TOTAL"
  | .addrOf => "ADDR_OF"
  | .indexOf => "INDEX_OF"
  | .byteRange => "BYTE_RANGE"
  | .reset _ => "RESET"
  | .decode _ _ => "DECODE"
  | .unpackInit => "UNPACK_INIT"
  | .nextCode => "NEXT_CODE"
  | .decodeNext _ => "DECODE_NEXT"

/-- The command word that a number of `nbits` bits stands for: its bits from `nbits` up are 0. Every command is one
64-bit word (30_encoding.md R84). -/
def tableWord (nbits w : Nat) : Word := BitVec.ofNat 64 (w % 2 ^ nbits)

/-- What the decoder reads from the table word w; none where the word is illegal. -/
def decodeTableWord (nbits w : Nat) : Option Instr :=
  match decode (tableWord nbits w) with
  | .command i => some i
  | .illegal _ => none

end Sys2Proof
end

