-- ==== Sys2Proof/Machine/DecoderState.lean ====
section
/-! DEFINITION. The per-channel decoder state of 10_state.md R33, as plain data. -/

namespace Sys2Proof.Machine

/-- The decoder's internal floating-point word float11 (00_scope.md R14): a sign (true = 1 = negative), a 4-bit
exponent and a 6-bit mantissa. -/
structure Float11 where
  s : Bool
  e : BitVec 4
  m : BitVec 6
  deriving DecidableEq, Repr, Inhabited

/-- The decoder state `ch[c]` of one channel, field by field as 10_state.md R33 lists it, each at its width.
A one-bit field is a Bool with true = 1; `pk1` and `pk2` are true for a negative sign. -/
structure DecoderState where
  yu  : BitVec 13
  yl  : BitVec 19
  ap  : BitVec 10
  dms : BitVec 12
  dml : BitVec 14
  td  : Bool
  a1  : BitVec 16
  a2  : BitVec 16
  b1  : BitVec 16
  b2  : BitVec 16
  b3  : BitVec 16
  b4  : BitVec 16
  b5  : BitVec 16
  b6  : BitVec 16
  pk1 : Bool
  pk2 : Bool
  sr1 : Float11
  sr2 : Float11
  dq1 : Float11
  dq2 : Float11
  dq3 : Float11
  dq4 : Float11
  dq5 : Float11
  dq6 : Float11
  deriving DecidableEq, Repr, Inhabited

end Sys2Proof.Machine
end

