-- ==== Sys2Proof/Machine/Tables.lean ====
section
/-! DEFINITION. The parameters G726 and PCM_SHIFT (00_scope.md R8; 92_eei_decisions.md D14, D15) as plain data, and the
defaults the spec gives them: the constant tables of 44_quantizer_tables.md, the datapath of 43_decoder.md, and 2. The
spec marks every default value as general knowledge. UNVERIFIED, unsafe: log entry 3. -/

namespace Sys2Proof.Machine

/-- The first halves of the three tables of one mode (44_quantizer_tables.md R200). -/
structure ModeTables where
  dqln : List Int
  w    : List Int
  f    : List Int
  deriving DecidableEq, Repr

/-- The tables of the four modes B = 2, 3, 4, 5: a part of the parameter G726 (92_eei_decisions.md D14). -/
structure Tables where
  two   : ModeTables
  three : ModeTables
  four  : ModeTables
  five  : ModeTables
  deriving DecidableEq, Repr

/-- The datapath: the other part of the parameter G726 (92_eei_decisions.md D14). A function is no plain data, so
another datapath than the spec's transcription is named by a number that `Config.suppliedDatapath` reads. DESIGN
CHOICE, safe: log entry 22. -/
inductive Datapath where
  /-- 43_decoder.md R162 to R181, the default. -/
  | transcription
  /-- Another one, which a reader supplies. -/
  | supplied (n : Nat)
  deriving DecidableEq, Repr

/-- The parameter G726 (00_scope.md R8). -/
structure G726 where
  tables   : Tables
  datapath : Datapath
  deriving DecidableEq, Repr

/-- The mode's tables. No rule uses another width than 2..5, which has empty ones: log entry 15. -/
def Tables.mode (t : Tables) : Nat → ModeTables
  | 2 => t.two
  | 3 => t.three
  | 4 => t.four
  | 5 => t.five
  | _ => { dqln := [], w := [], f := [] }

/-- Entry I of a table of mode b given by its first half (44_quantizer_tables.md R200), I < 2^b. For I ≥ 2^b, which R200
leaves undefined and no rule reads, it gives the entry of code 0 (the subtraction stops at 0), and for a width outside
2..5, which has no half, 0. DESIGN CHOICE, unsafe there: log entry 15. -/
def mirrored (half : List Int) (b i : Nat) : Int :=
  if i < 2 ^ (b - 1) then half.getD i 0 else half.getD (2 ^ b - 1 - i) 0

/-- Tbl_b(DQLN, i) (44_quantizer_tables.md R200). -/
def tblDqln (t : Tables) (b i : Nat) : Int := mirrored (t.mode b).dqln b i

/-- Tbl_b(W, i) (44_quantizer_tables.md R200). -/
def tblW (t : Tables) (b i : Nat) : Int := mirrored (t.mode b).w b i

/-- Tbl_b(F, i) (44_quantizer_tables.md R200). -/
def tblF (t : Tables) (b i : Nat) : Int := mirrored (t.mode b).f b i

/-- The default tables: DQLN, W and F of 44_quantizer_tables.md R201, R202 and R203. -/
def Tables.transcription : Tables :=
  { two :=
      { dqln := [116, 365]
        w := [-22, 439]
        f := [0, 7] }
    three :=
      { dqln := [-2048, 135, 273, 373]
        w := [-4, 30, 137, 582]
        f := [0, 1, 2, 7] }
    four :=
      { dqln := [-2048, 4, 135, 213, 273, 323, 373, 425]
        w := [-12, 18, 41, 64, 112, 198, 355, 1122]
        f := [0, 0, 0, 1, 1, 1, 3, 7] }
    five :=
      { dqln := [-2048, -66, 28, 104, 169, 224, 274, 318, 358, 395, 429, 459, 488, 514, 539, 566]
        w := [14, 14, 24, 39, 40, 41, 58, 100, 141, 179, 219, 280, 358, 440, 529, 696]
        f := [0, 0, 0, 0, 0, 1, 1, 1, 1, 1, 2, 3, 4, 5, 6, 6] } }

/-- The default of G726: the spec's transcription (92_eei_decisions.md D14). -/
def G726.transcription : G726 := { tables := Tables.transcription, datapath := .transcription }

/-- The default of PCM_SHIFT (00_scope.md R8; 92_eei_decisions.md D15). -/
def pcmShiftDefault : Nat := 2

end Sys2Proof.Machine
end

