-- ==== Sys2Proof/Config.lean ====
section
/-! DEFINITION. What an implementation fixes (00_scope.md R8) and the free values: constants without a body, so that
no proof can see what they are. -/

namespace Sys2Proof

/-- BIT_ORDER: how codes are packed in bytes (00_scope.md R8, 42_unpacker.md R141); open (92_eei_decisions.md D13). -/
inductive BitOrder where
  | msbFirst
  | lsbFirst
  deriving DecidableEq, Repr, Inhabited

/-- The parameters one block is built with (00_scope.md R8). They stand in State, since CAP_CH and CAP_BUF read two of
them (10_state.md R31), and no step changes them. DESIGN CHOICE, safe: log entry 1. The last two have the defaults
of 92_eei_decisions.md D14 and D15. -/
structure Params where
  /-- MAX_CH, the number of channel decoder states. -/
  maxCh    : Nat
  /-- BUF_BYTES, the capacity of BUF. -/
  bufBytes : Nat
  /-- BIT_ORDER. -/
  bitOrder : BitOrder
  /-- PCM_SHIFT, with its default. -/
  pcmShift : Nat := Machine.pcmShiftDefault
  /-- G726, with its default: the tables and the datapath. -/
  g726     : Machine.G726 := Machine.G726.transcription
  deriving DecidableEq, Repr

/-- The legal parameters: MAX_CH ≥ 1 and BUF_BYTES ≥ 2 (00_scope.md R8); the upper bounds say that CAP_CH holds MAX_CH
and that CURSOR, which is at most 8·BUF_BYTES + 7 (10_state.md R29), fits its 64 bits. DEDUCED, unsafe: log entry 2. -/
abbrev Params.WF (p : Params) : Prop :=
  1 ≤ p.maxCh ∧ p.maxCh < 2 ^ 64 ∧ 2 ≤ p.bufBytes ∧ 8 * p.bufBytes + 7 < 2 ^ 64

/-- MAX_CH − 1 of the block at hand; open (92_eei_decisions.md D18), so it has no body. -/
opaque Config.extraChannels : Fin 18446744073709551615

/-- BUF_BYTES − 2 of the block at hand; open (92_eei_decisions.md D18), so it has no body. -/
opaque Config.extraBufBytes : Fin 2305843009213693950

/-- BIT_ORDER of the block at hand; open (92_eei_decisions.md D13), so it has no body. -/
opaque Config.bitOrder : BitOrder

/-- The parameters of the block at hand: any legal capacities and bit order (DESIGN CHOICE, safe: log entry 1), and the
values 00_scope.md R8 gives PCM_SHIFT and G726 (UNVERIFIED, unsafe: log entry 3). -/
def Config.params : Params :=
  { maxCh := Config.extraChannels.val + 1
    bufBytes := Config.extraBufBytes.val + 2
    bitOrder := Config.bitOrder
    pcmShift := Machine.pcmShiftDefault
    g726 := Machine.G726.transcription }

/-- The byte that BUF[i] holds after the n-th power-on until it is written (20_memory.md R66: a draw per byte, fixed
until written). A free value, safe: log entry 4. -/
opaque Config.bufDraw : Nat → Nat → Byte

/-- The decoder state that channel c holds after the n-th power-on until its RESET (70_reset_and_hazards.md R260:
unspecified). A free value, safe: log entry 6. -/
opaque Config.decoderDraw : Nat → Nat → Machine.DecoderState

/-- The n-th free result: what RES0 receives where the spec gives a number that its 64 bits do not hold.
DESIGN CHOICE, safe: log entry 7. -/
opaque Config.freeWord : Nat → Word

/-- The n-th datapath that a reader may supply for the spec's transcription (92_eei_decisions.md D14): from the old
state, the code and B it gives the next state and the reconstructed signal SR. A free value, safe: log entry 22. -/
opaque Config.suppliedDatapath : Nat → Machine.DecoderState → Nat → Nat → Machine.DecoderState × BitVec 16

/-- CONVERGENCE_WINDOW (00_scope.md R8, 43_decoder.md R185); open (92_eei_decisions.md D30). No rule reads it. -/
opaque Config.convergenceWindow : Nat

/-- CONVERGENCE_THRESHOLD (00_scope.md R8, 43_decoder.md R185); open (92_eei_decisions.md D30). No rule reads it. -/
opaque Config.convergenceThreshold : Nat

end Sys2Proof
end

