-- ==== Sys2Proof/Machine/Arith.lean ====
section
/-! DEFINITION. The arithmetic of 00_scope.md R12 that the rules share. -/

namespace Sys2Proof.Machine

/-- x >> n on a signed integer, the arithmetic right shift floor(x / 2^n) (00_scope.md R12). Lean's `/` on Int rounds
down for a positive divisor. -/
def asr (x : Int) (n : Nat) : Int := x / 2 ^ n

/-- The 16-bit two's-complement value congruent to x (00_scope.md R12). -/
def wrap16 (x : Int) : Int := (x + 32768) % 65536 - 32768

/-- clamp(x, lo, hi) = min(max(x, lo), hi) (00_scope.md R12). -/
def clamp (x lo hi : Int) : Int := min (max x lo) hi

/-- The number of bits of m; bitlen 0 = 0 (00_scope.md R12). -/
def bitlen (m : Nat) : Nat := if m = 0 then 0 else Nat.log2 m + 1

/-- A result as a host register holds it: sext_64 of a signed value (00_scope.md R12; 92_eei_decisions.md D35). -/
def sext64 (x : Int) : Word := BitVec.ofInt 64 x

/-- A result as a host register holds it: a non-negative value below 2^64 (00_scope.md R10). -/
def word (n : Nat) : Word := BitVec.ofNat 64 n

end Sys2Proof.Machine
end

