-- ==== Sys2Proof/Machine/G726.lean ====
section
/-! DEFINITION. The per-sample transition DecodeStep (43_decoder.md R162 to R181), one definition per rule, on the tables
t of the parameter G726. Values are
exact integers and are narrowed to the field's width when they are stored; in the legal states of 10_state.md R33 no
narrowing changes a value: log entry 14. -/

namespace Sys2Proof.Machine

/-! ### Floating-point words -/

/-- The 11-bit encoding of a float word (00_scope.md R14). -/
def Float11.encode (f : Float11) : Nat := (f.s.toNat <<< 10) + (f.e.toNat <<< 6) + f.m.toNat

/-- FLOAT(s, mag) (43_decoder.md R164). -/
def toFloat (s : Bool) (mag : Nat) : Float11 :=
  let e := bitlen mag
  let m := if mag = 0 then 32 else (mag <<< 6) >>> e
  { s := s, e := BitVec.ofNat 4 e, m := BitVec.ofNat 6 m }

/-- The 13-bit magnitude of a coefficient in FMULT, amag (43_decoder.md R165). -/
def coefMagnitude (an : Int) : Nat :=
  let a := asr an 2
  if an < 0 then (-a).toNat % 2 ^ 13 else a.toNat

/-- The magnitude of a product in FMULT, wmag (43_decoder.md R165). -/
def productMagnitude (amag : Nat) (f : Float11) : Nat :=
  let ae := bitlen amag
  let am := if amag = 0 then 32 else (amag <<< 6) >>> ae
  let we := ae + f.e.toNat
  let wm := (am * f.m.toNat + 48) >>> 4
  if we ≤ 26 then (wm <<< 7) >>> (26 - we) else ((wm <<< 7) <<< (we - 26)) % 2 ^ 15

/-- FMULT(An, f) (43_decoder.md R165). -/
def fmult (an : Int) (f : Float11) : Int :=
  let wmag := productMagnitude (coefMagnitude an) f
  if xor (decide (an < 0)) f.s then -(wmag : Int) else (wmag : Int)

/-! ### The estimates, the scale factor and the difference -/

/-- DS, the sign of a code of b bits; true = 1 = negative (43_decoder.md R163). -/
def codeSign (b i : Nat) : Bool := i.testBit (b - 1)

/-- SEZI, the zero section's sum (43_decoder.md R166). -/
def zeroSum (st : DecoderState) : Int :=
  wrap16 (fmult st.b1.toInt st.dq1 + fmult st.b2.toInt st.dq2 + fmult st.b3.toInt st.dq3
    + fmult st.b4.toInt st.dq4 + fmult st.b5.toInt st.dq5 + fmult st.b6.toInt st.dq6)

/-- SEI, the pole-zero sum (43_decoder.md R166). -/
def poleZeroSum (st : DecoderState) : Int :=
  wrap16 (zeroSum st + fmult st.a2.toInt st.sr2 + fmult st.a1.toInt st.sr1)

/-- Y, the scale factor used for this sample (43_decoder.md R167). -/
def scaleFactor (st : DecoderState) : Int :=
  if 256 ≤ st.ap.toNat then (st.yu.toNat : Int)
  else
    let yls : Int := ((st.yl.toNat >>> 6 : Nat) : Int)
    let p : Int := ((st.yu.toNat : Int) - yls) * ((st.ap.toNat >>> 2 : Nat) : Int)
    if 0 ≤ p then yls + asr p 6 else yls - asr (-p) 6

/-- DQL, the difference's magnitude in the log domain (43_decoder.md R168). -/
def logDifference (t : Tables) (b i : Nat) (y : Int) : Int := tblDqln t b i + asr y 2

/-- DQMAG as R168 gives it from DQL (43_decoder.md R168). -/
def antilog (dql : Int) : Nat :=
  if dql < 0 then 0
  else
    let d := dql.toNat
    let dex := (d >>> 7) % 16
    let dqt := 128 + d % 128
    (dqt <<< 7) >>> (14 - dex)

/-- DQTHR, the transition detector's threshold, from YL (43_decoder.md R171). -/
def transitionThreshold (yl : Nat) : Nat :=
  let ylint := yl >>> 15
  let ylfrac := (yl >>> 10) % 32
  let thr1 := (32 + ylfrac) <<< ylint
  let thr2 := if 9 < ylint then 31 <<< 10 else thr1
  (thr2 + (thr2 >>> 1)) >>> 1

/-- The values one step computes from the old state and the code, before the next state (43_decoder.md R162). -/
structure Signals where
  /-- DS. -/
  ds    : Bool
  /-- SEZ and SE. -/
  sez   : Int
  se    : Int
  /-- Y. -/
  y     : Int
  /-- DQMAG. -/
  dqmag : Nat
  /-- SR. -/
  sr    : Int
  /-- DQSEZ. -/
  dqsez : Int
  /-- TR. -/
  tr    : Bool
  deriving DecidableEq, Repr

/-- The signed quantized difference DQI (43_decoder.md R169). The full 15-bit magnitude is used, as the spec chooses
(93_implementation_defined.md GK7). -/
def signedDifference (ds : Bool) (dqmag : Nat) : Int := if ds then -(dqmag : Int) else (dqmag : Int)

/-- The values of one step in the order of R162 (43_decoder.md R163 to R171). -/
def signals (t : Tables) (st : DecoderState) (i b : Nat) : Signals :=
  let ds := codeSign b i
  let sez := asr (zeroSum st) 1
  let se := asr (poleZeroSum st) 1
  let y := scaleFactor st
  let dqmag := antilog (logDifference t b i y)
  let dqi := signedDifference ds dqmag
  { ds := ds
    sez := sez
    se := se
    y := y
    dqmag := dqmag
    sr := wrap16 (se + dqi)
    dqsez := wrap16 (dqi + sez)
    tr := st.td && decide (transitionThreshold st.yl.toNat < dqmag) }

/-- PK0, the sign of the partial signal estimate (43_decoder.md R169). -/
def Signals.pk0 (g : Signals) : Bool := decide (g.dqsez < 0)

/-- SIGPK = 1: the partial signal estimate is zero (43_decoder.md R169). -/
def Signals.sigpk (g : Signals) : Bool := decide (g.dqsez = 0)

/-- The output sample: SR scaled to 16 bits by PCM_SHIFT and clipped (43_decoder.md R170). -/
def outputSample (pcmShift : Nat) (sr : Int) : Int := clamp (sr * 2 ^ pcmShift) (-32768) 32767

/-! ### The next state -/

/-- YU' (43_decoder.md R172). -/
def nextYu (t : Tables) (b i : Nat) (y : Int) : Int :=
  let wi := tblW t b i * 2 ^ 5
  clamp (y + asr (wi - y) 5) 544 5120

/-- YL' (43_decoder.md R173). -/
def nextYl (yl yu' : Int) : Int := yl + yu' + asr (-yl) 6

/-- A2P (43_decoder.md R174, R175): the new second pole coefficient, which R176 and R179 read. -/
def nextA2 (st : DecoderState) (g : Signals) : Int :=
  if g.tr then 0
  else
    let a2 := st.a2.toInt
    let leaked := a2 - asr a2 7
    if g.sigpk then leaked
    else
      let fa1 := if xor g.pk0 st.pk1 then st.a1.toInt else -st.a1.toInt
      let fa := clamp (asr fa1 5) (-256) 255
      clamp (leaked + fa + (if xor g.pk0 st.pk2 then -128 else 128)) (-12288) 12288

/-- A1' (43_decoder.md R174, R176). -/
def nextA1 (st : DecoderState) (g : Signals) : Int :=
  if g.tr then 0
  else
    let a1 := st.a1.toInt
    let leaked := a1 - asr a1 8
    let a1t := if g.sigpk then leaked else leaked + (if xor g.pk0 st.pk1 then -192 else 192)
    let bound := 15360 - nextA2 st g
    clamp a1t (-bound) bound

/-- LEAK, the per-mode leak of the zero coefficients (43_decoder.md R177). -/
def leakShift (b : Nat) : Nat := if b = 5 then 9 else 8

/-- Bi' from Bi and the sign of DQi (43_decoder.md R174, R177). -/
def nextB (b : Nat) (g : Signals) (bi : BitVec 16) (dqi : Float11) : Int :=
  if g.tr then 0
  else
    let x := bi.toInt
    let leaked := x - asr x (leakShift b)
    wrap16 (if g.dqmag = 0 then leaked else leaked + (if xor g.ds dqi.s then -128 else 128))

/-- SR1', the reconstructed signal as a float word; SR = −32768 gives a zero magnitude (43_decoder.md R178). -/
def floatSignal (sr : Int) : Float11 :=
  if sr < 0 then toFloat true ((-sr).toNat % 2 ^ 15) else toFloat false sr.toNat

/-- TD' (43_decoder.md R179). -/
def nextTd (st : DecoderState) (g : Signals) : Bool := !g.tr && decide (nextA2 st g < -11776)

/-- DMS' (43_decoder.md R180). -/
def nextDms (t : Tables) (b i : Nat) (dms : Int) : Int := dms + asr (tblF t b i * 2 ^ 9 - dms) 5

/-- DML' (43_decoder.md R180). -/
def nextDml (t : Tables) (b i : Nat) (dml : Int) : Int := dml + asr (4 * (tblF t b i * 2 ^ 9) - dml) 7

/-- AX = 1: the speed control rises (43_decoder.md R181); it reads the new TD', DMS', DML' and the Y of R167. -/
def speedRises (y : Int) (td' : Bool) (dms' dml' : Int) : Bool :=
  decide (y < 1536) || td' || decide (asr dml' 3 ≤ ((4 * dms' - dml').natAbs : Int))

/-- AP' (43_decoder.md R181). -/
def nextAp (ap : Int) (tr ax : Bool) : Int :=
  if tr then 256
  else if ax then ap + asr (512 - ap) 4
  else ap + asr (-ap) 4

/-- The next state from the old one and the step's values (43_decoder.md R172 to R181). -/
def nextDecoder (t : Tables) (st : DecoderState) (i b : Nat) (g : Signals) : DecoderState :=
  let yu' := nextYu t b i g.y
  let td' := nextTd st g
  let dms' := nextDms t b i st.dms.toNat
  let dml' := nextDml t b i st.dml.toNat
  { yu := BitVec.ofInt 13 yu'
    yl := BitVec.ofInt 19 (nextYl st.yl.toNat yu')
    ap := BitVec.ofInt 10 (nextAp st.ap.toNat g.tr (speedRises g.y td' dms' dml'))
    dms := BitVec.ofInt 12 dms'
    dml := BitVec.ofInt 14 dml'
    td := td'
    a1 := BitVec.ofInt 16 (nextA1 st g)
    a2 := BitVec.ofInt 16 (nextA2 st g)
    b1 := BitVec.ofInt 16 (nextB b g st.b1 st.dq1)
    b2 := BitVec.ofInt 16 (nextB b g st.b2 st.dq2)
    b3 := BitVec.ofInt 16 (nextB b g st.b3 st.dq3)
    b4 := BitVec.ofInt 16 (nextB b g st.b4 st.dq4)
    b5 := BitVec.ofInt 16 (nextB b g st.b5 st.dq5)
    b6 := BitVec.ofInt 16 (nextB b g st.b6 st.dq6)
    pk1 := g.pk0
    pk2 := st.pk1
    sr1 := floatSignal g.sr
    sr2 := st.sr1
    dq1 := toFloat g.ds g.dqmag
    dq2 := st.dq1
    dq3 := st.dq2
    dq4 := st.dq3
    dq5 := st.dq4
    dq6 := st.dq5 }

/-- The next state and SR as the parameter G726 gives them: by the transcription, or by a supplied datapath
(92_eei_decisions.md D14). -/
def G726.run (g : G726) (st : DecoderState) (i b : Nat) : DecoderState × Int :=
  match g.datapath with
  | .transcription =>
    let x := signals g.tables st i b
    (nextDecoder g.tables st i b x, x.sr)
  | .supplied n =>
    let r := Config.suppliedDatapath n st i b
    (r.1, r.2.toInt)

/-- DecodeStep(st, I, B): the next state and the sample, with the parameters G726 and PCM_SHIFT (43_decoder.md R160,
R162, R170). -/
def decodeStep (g : G726) (pcmShift : Nat) (st : DecoderState) (i b : Nat) : DecoderState × Int :=
  let r := g.run st i b
  (r.1, outputSample pcmShift r.2)

/-- The decoder on a list of codes: the samples in order and the state after (43_decoder.md R162, R187). -/
def decodeRun (g : G726) (pcmShift b : Nat) : List Nat → DecoderState → List Int × DecoderState
  | [], st => ([], st)
  | i :: rest, st =>
    let r := decodeStep g pcmShift st i b
    let q := decodeRun g pcmShift b rest r.1
    (r.2 :: q.1, q.2)

/-! ### The reset state -/

/-- The float zero that RESET writes, {0, 0, 32} (43_decoder.md R161). -/
def Float11.zero : Float11 := { s := false, e := 0, m := 32 }

/-- The state RESET writes (43_decoder.md R161; 10_state.md R33). -/
def DecoderState.reset : DecoderState :=
  { yu := 544
    yl := 34816
    ap := 0
    dms := 0
    dml := 0
    td := false
    a1 := 0
    a2 := 0
    b1 := 0
    b2 := 0
    b3 := 0
    b4 := 0
    b5 := 0
    b6 := 0
    pk1 := false
    pk2 := false
    sr1 := Float11.zero
    sr2 := Float11.zero
    dq1 := Float11.zero
    dq2 := Float11.zero
    dq3 := Float11.zero
    dq4 := Float11.zero
    dq5 := Float11.zero
    dq6 := Float11.zero }

end Sys2Proof.Machine
end

