-- ==== Sys2Proof/Machine/State.lean ====
section
/-! DEFINITION. The state of one block, as plain data, and its value after hardware reset. -/

namespace Sys2Proof.Machine

/-- The codes of STATUS.ERR (60_exceptions.md R240). Codes 9..15 are never written and have no constructor
(93_implementation_defined.md U10). `ioError` is the host's: no command raises it. -/
inductive ErrCode where
  | ok
  | outOfRange
  | truncated
  | unsupportedMode
  | ioError
  | illegalCommand
  | notReady
  | capacity
  | format
  deriving DecidableEq, Repr

/-- The STATUS register's fields (10_state.md R25). Its other bits read 0 and are not stored: log entry 13. -/
structure Status where
  err    : ErrCode
  opened : Bool
  sticky : Bool
  deriving DecidableEq, Repr

/-- The StreamFormat registers FMT_BPS, FMT_CH, FMT_RATE, FMT_DOFF, FMT_DLEN (10_state.md R28). -/
structure Format where
  bps  : Word
  ch   : Word
  rate : Word
  doff : Word
  dlen : Word
  deriving DecidableEq, Repr

/-- The four host operations (20_memory.md R61), with the numbers the host gives before any check, so that an
operation R62 refuses can be written down: log entry 9. -/
inductive HostOp where
  | writeReg (r v : Nat)
  | readReg (r : Nat)
  | writeBuf (i v : Nat)
  | readBuf (i : Nat)
  deriving DecidableEq, Repr

/-- What the outside world does to the block: a host operation, or power-on (70_reset_and_hazards.md R261; log
entry 10). -/
inductive Input where
  | host (op : HostOp)
  | powerOn
  deriving DecidableEq, Repr

/-- What ReadReg and ReadBuf return to the host (20_memory.md R61). -/
inductive Reply where
  | reg (v : Word)
  | byte (v : Byte)
  deriving DecidableEq, Repr

/-- Every piece of state of the block (10_state.md R20), and the model's own bookkeeping of what the host does. -/
structure State where
  /-- MAX_CH, BUF_BYTES, BIT_ORDER, PCM_SHIFT and G726: what the block was built with; CAP_CH and CAP_BUF read the first
  two. -/
  params    : Params
  /-- STATUS (10_state.md R25). -/
  status    : Status
  /-- ARG0..ARG4 (10_state.md R26). -/
  arg0      : Word
  arg1      : Word
  arg2      : Word
  arg3      : Word
  arg4      : Word
  /-- RES0 and RES1 (10_state.md R27). -/
  res0      : Word
  res1      : Word
  /-- The format registers (10_state.md R28). -/
  fmt       : Format
  /-- CURSOR, the unpacker's flat bit index (10_state.md R29). -/
  cursor    : Word
  /-- BUF_LEN (10_state.md R30). -/
  bufLen    : Word
  /-- BUF: the bytes written since power-on, by rising index (20_memory.md R60, R66; log entry 5). -/
  buf       : List Host.Cell
  /-- The channel decoder states RESET since power-on, by rising channel (10_state.md R33, R36; log entry 6). -/
  decoders  : List (Nat × DecoderState)
  /-- READY: the channels whose bit is 1, rising (10_state.md R34). -/
  ready     : List Nat
  /-- The model's own: how many power-ons came before this one, so that each draws afresh (log entries 4, 6, 10). -/
  powerOns  : Nat
  /-- The model's own: which free result comes next (log entry 7). -/
  freeIndex : Nat
  /-- The model's own: the inputs not yet taken, oldest first: the host's program order (20_memory.md R68; log
  entry 8). -/
  pending   : List Input
  /-- The model's own: what the last host operation returned; none for a write (log entry 8). -/
  reply     : Option Reply
  deriving DecidableEq, Repr

/-- Why the machine stops with a fault: never. The block has no trap, and every error is recoverable
(60_exceptions.md R244, R245), so no constructor raises one. -/
inductive Fault where
  deriving DecidableEq, Repr

/-- Why a step is refused. -/
inductive Refusal where
  /-- An instruction without a meaning. Raised by a refused arm of `exec` only; no arm is refused. Safe: it stops. -/
  | notModelled (mnemonic : String)
  /-- A register index of 64 or more (20_memory.md R62). Raised by `hostAccess`. Safe: the access does not exist. -/
  | noSuchRegister (r : Nat)
  /-- A buffer index of BUF_BYTES or more (20_memory.md R62). Raised by `hostAccess`. Safe: the access does not exist. -/
  | noSuchBufferByte (i : Nat)
  /-- A value wider than its target (20_memory.md R62). Raised by `hostAccess`. Safe: the access does not exist. -/
  | valueTooWide (v : Nat)
  deriving DecidableEq, Repr

/-- STATUS after hardware reset (70_reset_and_hazards.md R260). -/
def Status.reset : Status := { err := .ok, opened := false, sticky := false }

/-- The format registers after hardware reset (70_reset_and_hazards.md R260). -/
def Format.reset : Format := { bps := 0, ch := 0, rate := 0, doff := 0, dlen := 0 }

/-- The state after hardware reset of a block with the parameters p (70_reset_and_hazards.md R260). BUF and the decoder
states are unspecified: nothing is listed, and what is not listed reads as a draw. The last four fields are the model's
own: log entry 11. -/
def State.resetWith (p : Params) : State :=
  { params := p
    status := Status.reset
    arg0 := 0
    arg1 := 0
    arg2 := 0
    arg3 := 0
    arg4 := 0
    res0 := 0
    res1 := 0
    fmt := Format.reset
    cursor := 0
    bufLen := 0
    buf := []
    decoders := []
    ready := []
    powerOns := 0
    freeIndex := 0
    pending := []
    reply := none }

/-- The state right after hardware reset of the block at hand. -/
def State.reset : State := State.resetWith Config.params

end Sys2Proof.Machine
end

