-- ==== Sys2Proof/Machine/Flags.lean ====
section
/-! DEFINITION. STATUS: its codes, its word, and every change of its fields (10_state.md R25, R39). No decoder result
sets a flag (R39), so these are all of them. -/

namespace Sys2Proof.Machine

/-- The number of an error code (60_exceptions.md R240). -/
def ErrCode.code : ErrCode → Nat
  | .ok => 0
  | .outOfRange => 1
  | .truncated => 2
  | .unsupportedMode => 3
  | .ioError => 4
  | .illegalCommand => 5
  | .notReady => 6
  | .capacity => 7
  | .format => 8

/-- STATUS as a host read gives it: ERR in bits 3:0, OPEN in bit 8, STICKY in bit 9, the other bits 0
(10_state.md R25). -/
def Status.word (st : Status) : Word :=
  BitVec.ofNat 64 (st.err.code + (if st.opened then 2 ^ 8 else 0) + (if st.sticky then 2 ^ 9 else 0))

/-- STATUS after `fail e`: ERR is the code and STICKY is 1 (60_exceptions.md R242). -/
def Status.failed (e : ErrCode) (st : Status) : Status := { st with err := e, sticky := true }

/-- STATUS after `ok`: ERR is 0 and STICKY stays (60_exceptions.md R243). -/
def Status.succeeded (st : Status) : Status := { st with err := .ok }

/-- STATUS after a successful OPEN's `STATUS.OPEN <- 1` (40_stream.md R101). -/
def Status.withOpen (st : Status) : Status := { st with opened := true }

/-- STATUS after a host write of v to it: STICKY is cleared when bit 9 of v is 1, and nothing else changes
(10_state.md R25). -/
def Status.written (v : Word) (st : Status) : Status :=
  { st with sticky := st.sticky && !(v.getLsbD 9) }

end Sys2Proof.Machine
end

