-- ==== Sys2Proof/Machine/Operands.lean ====
section
/-! DEFINITION. The operand forms of the commands: ARG0..ARG4 and the format registers as exact non-negative integers
(00_scope.md R10), and the checks on them that several commands share. The fields CH and CODE of the command word are
numbers already (Syntax.lean). -/

namespace Sys2Proof.Machine

/-- ARG0 as a number. -/
abbrev State.argN0 (s : State) : Nat := s.arg0.toNat

/-- ARG1 as a number. -/
abbrev State.argN1 (s : State) : Nat := s.arg1.toNat

/-- ARG2 as a number. -/
abbrev State.argN2 (s : State) : Nat := s.arg2.toNat

/-- ARG4 as a number. -/
abbrev State.argN4 (s : State) : Nat := s.arg4.toNat

/-- B, the code width of the open stream (10_state.md R28). -/
abbrev State.width (s : State) : Nat := s.fmt.bps.toNat

/-- C, the channel count of the open stream (10_state.md R28). -/
abbrev State.channels (s : State) : Nat := s.fmt.ch.toNat

/-- L, the byte length of the data region of the open stream (10_state.md R28). -/
abbrev State.dataLen (s : State) : Nat := s.fmt.dlen.toNat

/-- T = (8·L) div (B·C), the total count of sample frames (40_stream.md R102). -/
abbrev State.totalFrames (s : State) : Nat := (8 * s.dataLen) / (s.width * s.channels)

/-- F(s, c) = (s·C + c)·B, the flat bit index of the code of a frame and channel (41_translator.md R121). -/
abbrev State.flatIndex (s : State) (frame ch : Nat) : Nat := (frame * s.channels + ch) * s.width

/-- The four bitrate modes (00_scope.md R9). -/
def legalWidth (b : Nat) : Bool := b == 2 || b == 3 || b == 4 || b == 5

end Sys2Proof.Machine
end

