-- ==== Sys2Proof/Machine/Sparse.lean ====
section
/-! DEFINITION. Sparse data by key: lists of (key, value) pairs with strictly rising keys, and sets as strictly rising
lists. BUF, the decoder states and READY are held so. -/

namespace Sys2Proof.Machine

/-- The value at a key; none where the key is not listed. -/
def sparseFind {α : Type} (k : Nat) : List (Nat × α) → Option α
  | [] => none
  | (j, v) :: rest => if j = k then some v else sparseFind k rest

/-- The list with v at k, keeping the keys rising. -/
def sparseInsert {α : Type} (k : Nat) (v : α) : List (Nat × α) → List (Nat × α)
  | [] => [(k, v)]
  | (j, w) :: rest =>
    if k < j then (k, v) :: (j, w) :: rest
    else if k = j then (k, v) :: rest
    else (j, w) :: sparseInsert k v rest

/-- The set with k in it, keeping it rising. -/
def setInsert (k : Nat) : List Nat → List Nat
  | [] => [k]
  | j :: rest =>
    if k < j then k :: j :: rest
    else if k = j then j :: rest
    else j :: setInsert k rest

/-- Strictly rising. -/
def rising : List Nat → Bool
  | [] => true
  | a :: rest => rest.all (fun b => decide (a < b)) && rising rest

/-- Strictly rising keys. -/
def keysRising {α : Type} (m : List (Nat × α)) : Bool := rising (m.map Prod.fst)

end Sys2Proof.Machine
end

