-- ==== Sys2Proof/Machine/Ops.lean ====
section
/-! DEFINITION. The named operations on the state that the commands and the host accesses share. -/

namespace Sys2Proof.Machine

/-- What a step or a command answers. -/
abbrev Answer := Host.Outcome State Fault Refusal

/-! ### The end of a command -/

/-- What `fail e` does to the state: STATUS.ERR and STATUS.STICKY, and nothing else (60_exceptions.md R242). -/
def State.fail (e : ErrCode) (s : State) : State := { s with status := s.status.failed e }

/-- What `ok` does to the state: STATUS.ERR is 0 (60_exceptions.md R243). -/
def State.succeed (s : State) : State := { s with status := s.status.succeeded }

/-- The command ends with `fail e`: the block's whole trap entry (60_exceptions.md R245). s is the state before the
command. There is no return beside it (R246): the host acknowledges with `State.writeStatus`. -/
def failWith (e : ErrCode) (s : State) : Answer := .next (s.fail e)

/-- The command ends with `ok` (00_scope.md R13); s is the state with the command's writes made. -/
def finish (s : State) : Answer := .next s.succeed

/-- A host write of STATUS (10_state.md R25): CLEAR_STICKY when bit 9 is 1 (30_encoding.md R87). -/
def State.writeStatus (v : Word) (s : State) : State := { s with status := s.status.written v }

/-- An illegal command word: a failed command with IllegalCommand, whatever the state (30_encoding.md R83,
60_exceptions.md R241). -/
def execIllegal (s : State) : Answer := failWith .illegalCommand s

/-! ### Results, cursor and format -/

/-- RES0 <- v. -/
def State.setRes0 (v : Word) (s : State) : State := { s with res0 := v }

/-- RES1 <- v. -/
def State.setRes1 (v : Word) (s : State) : State := { s with res1 := v }

/-- RES0 <- n. Where n does not fit the register's 64 bits the spec states no value: RES0 receives the next free
result. DESIGN CHOICE, safe: log entry 7. -/
def State.setRes0Wide (n : Nat) (s : State) : State :=
  if n < 2 ^ 64 then s.setRes0 (word n)
  else { s with res0 := Config.freeWord s.freeIndex, freeIndex := s.freeIndex + 1 }

/-- CURSOR <- j. -/
def State.setCursor (j : Nat) (s : State) : State := { s with cursor := word j }

/-- BUF_LEN <- v. -/
def State.setBufLen (v : Word) (s : State) : State := { s with bufLen := v }

/-- What a successful OPEN writes: the format registers, STATUS.OPEN <- 1, every READY bit 0 (40_stream.md R101). -/
def State.openFormat (f : Format) (s : State) : State :=
  { s with fmt := f, status := s.status.withOpen, ready := [] }

/-! ### The code buffer BUF -/

/-- The canonical form of BUF: strictly rising indices. An unlisted index reads as 'never written', which no listed
byte equals, so equal lists are equal buffers: log entry 5. -/
def Memory.wf (m : List Host.Cell) : Bool := keysRising m

/-- What an index that the list does not hold reads as: the byte's draw since the last power-on
(20_memory.md R66; log entry 4). -/
def Memory.unlisted (powerOns i : Nat) : Byte := Config.bufDraw powerOns i

/-- BufRead(i) (00_scope.md R13). -/
def State.bufRead (i : Nat) (s : State) : Byte :=
  match sparseFind i s.buf with
  | some b => b
  | none => Memory.unlisted s.powerOns i

/-- BufWrite(i, v) (00_scope.md R13). -/
def State.bufWrite (i : Nat) (v : Byte) (s : State) : State := { s with buf := sparseInsert i v s.buf }

/-! ### The channel decoder states -/

/-- `ch[c]`: the channel's decoder state; a draw until its RESET (70_reset_and_hazards.md R260; log entry 6). -/
def State.decoder (c : Nat) (s : State) : DecoderState :=
  match sparseFind c s.decoders with
  | some d => d
  | none => Config.decoderDraw s.powerOns c

/-- `ch[c] <- d`. -/
def State.setDecoder (c : Nat) (d : DecoderState) (s : State) : State :=
  { s with decoders := sparseInsert c d s.decoders }

/-- READY[c] (10_state.md R34). -/
def State.isReady (c : Nat) (s : State) : Bool := s.ready.contains c

/-- READY[c] <- 1 (43_decoder.md R161). -/
def State.markReady (c : Nat) (s : State) : State := { s with ready := setInsert c s.ready }

/-! ### The host's side -/

/-- What the host operation returned. -/
def State.setReply (r : Option Reply) (s : State) : State := { s with reply := r }

/-- The inputs not yet taken. -/
def State.setPending (p : List Input) (s : State) : State := { s with pending := p }

/-- Power-on (70_reset_and_hazards.md R260, R261): every field as `State.resetWith` gives it, with fresh draws; the
inputs not yet taken stay. Log entry 10. -/
def State.powerOn (s : State) : State :=
  { State.resetWith s.params with powerOns := s.powerOns + 1, freeIndex := s.freeIndex, pending := s.pending }

end Sys2Proof.Machine
end

