-- ==== Sys2Proof/Machine/Unpacker.lean ====
section
/-! DEFINITION. The bit-unpacker UNPACK_INIT and NEXT_CODE (42_unpacker.md). -/

namespace Sys2Proof.Machine

/-- The bit of a byte at a stream position 0..7 (42_unpacker.md R141). -/
def bitPlace (order : BitOrder) (position : Nat) : Nat :=
  match order with
  | .msbFirst => 7 - position
  | .lsbFirst => position

/-- StreamBit(j), 0 or 1 (42_unpacker.md R141). -/
def State.streamBit (j : Nat) (s : State) : Nat :=
  ((s.bufRead (j / 8)).getLsbD (bitPlace s.params.bitOrder (j % 8))).toNat

/-- The weight of the t-th stream bit of a code of b bits (42_unpacker.md R142). -/
def bitWeight (order : BitOrder) (b t : Nat) : Nat :=
  match order with
  | .msbFirst => 2 ^ (b - 1 - t)
  | .lsbFirst => 2 ^ t

/-- Code(j, b), the code of b bits that starts at flat bit index j (42_unpacker.md R142). -/
def State.codeAt (j b : Nat) (s : State) : Nat :=
  ((List.range b).map (fun t => s.streamBit (j + t) * bitWeight s.params.bitOrder b t)).sum

/-- TakeCode(b) (42_unpacker.md R144): the code at CURSOR and the state with CURSOR moved past it; none where fewer
than b valid bits remain, which the command reports as Truncated. -/
def State.takeCode (b : Nat) (s : State) : Option (Nat × State) :=
  let j := s.cursor.toNat
  if 8 * s.bufLen.toNat < j + b then none
  else some (s.codeAt j b, s.setCursor (j + b))

/-- UNPACK_INIT (42_unpacker.md R143): ARG0 = byteOffset into BUF, ARG1 = bitOffsetInByte. -/
def execUnpackInit (s : State) : Answer :=
  if 7 < s.argN1 ∨ s.params.bufBytes < s.argN0 then failWith .outOfRange s
  else finish (s.setCursor (8 * s.argN0 + s.argN1))

/-- NEXT_CODE (42_unpacker.md R145). -/
def execNextCode (s : State) : Answer :=
  if s.status.opened = false then failWith .notReady s
  else
    match s.takeCode s.width with
    | none => failWith .truncated s
    | some (v, t) => finish (t.setRes0 (word v))

end Sys2Proof.Machine
end

