-- ==== Sys2Proof/Machine/Decoder.lean ====
section
/-! DEFINITION. The decode commands RESET, DECODE and DECODE_NEXT (43_decoder.md). -/

namespace Sys2Proof.Machine

/-- One step of channel c's decoder on the code i: `(ch[c], sample) <- DecodeStep(ch[c], i, B)` and
`RES0 <- sext_64(sample)` (43_decoder.md R182, R183). -/
def State.decodeOn (c i : Nat) (s : State) : State :=
  let r := decodeStep s.params.g726 s.params.pcmShift (s.decoder c) i s.width
  (s.setDecoder c r.1).setRes0 (sext64 r.2)

/-- RESET (43_decoder.md R161). -/
def execReset (c : Nat) (s : State) : Answer :=
  if s.status.opened = false then failWith .notReady s
  else if s.channels ≤ c then failWith .outOfRange s
  else finish ((s.setDecoder c DecoderState.reset).markReady c)

/-- DECODE (43_decoder.md R182). -/
def execDecode (c i : Nat) (s : State) : Answer :=
  if s.status.opened = false then failWith .notReady s
  else if s.channels ≤ c then failWith .outOfRange s
  else if 2 ^ s.width ≤ i then failWith .illegalCommand s
  else if s.isReady c = false then failWith .notReady s
  else finish (s.decodeOn c i)

/-- DECODE_NEXT (43_decoder.md R183). -/
def execDecodeNext (c : Nat) (s : State) : Answer :=
  if s.status.opened = false then failWith .notReady s
  else if s.channels ≤ c then failWith .outOfRange s
  else if s.isReady c = false then failWith .notReady s
  else
    match s.takeCode s.width with
    | none => failWith .truncated s
    | some (i, t) => finish ((t.decodeOn c i).setRes1 (word i))

end Sys2Proof.Machine
end

