-- ==== Sys2Proof/Machine/Stream.lean ====
section
/-! DEFINITION. The stream format commands OPEN and TOTAL (40_stream.md). -/

namespace Sys2Proof.Machine

/-- The format that ARG0..ARG4 describe (30_encoding.md R81). -/
def State.argFormat (s : State) : Format :=
  { bps := s.arg0, ch := s.arg1, rate := s.arg2, doff := s.arg3, dlen := s.arg4 }

/-- OPEN (40_stream.md R101). -/
def execOpen (s : State) : Answer :=
  if legalWidth s.argN0 = false then failWith .unsupportedMode s
  else if s.argN1 = 0 ∨ s.argN2 = 0 then failWith .format s
  else if s.params.maxCh < s.argN1 then failWith .capacity s
  else if (8 * s.argN4) % (s.argN0 * s.argN1) ≠ 0 then failWith .truncated s
  else finish (s.openFormat s.argFormat)

/-- TOTAL (40_stream.md R102). -/
def execTotal (s : State) : Answer :=
  if s.status.opened = false then failWith .notReady s
  else finish (s.setRes0Wide s.totalFrames)

end Sys2Proof.Machine
end

