-- ==== Sys2Proof/Machine/Translator.lean ====
section
/-! DEFINITION. The address translator ADDR_OF, INDEX_OF and BYTE_RANGE (41_translator.md). All arithmetic is exact on
non-negative integers (R120). -/

namespace Sys2Proof.Machine

/-- ADDR_OF (41_translator.md R122): ARG0 = sampleIndex, ARG1 = channelIndex. -/
def execAddrOf (s : State) : Answer :=
  if s.status.opened = false then failWith .notReady s
  else if s.channels ≤ s.argN1 then failWith .outOfRange s
  else
    let f := s.flatIndex s.argN0 s.argN1
    if s.dataLen < f / 8 then failWith .outOfRange s
    else finish ((s.setRes0 (word (f / 8))).setRes1 (word (f % 8)))

/-- INDEX_OF (41_translator.md R123): ARG0 = byteOffset, ARG1 = bitOffsetInByte. -/
def execIndexOf (s : State) : Answer :=
  if s.status.opened = false then failWith .notReady s
  else if 7 < s.argN1 then failWith .outOfRange s
  else if s.dataLen < s.argN0 then failWith .outOfRange s
  else
    let f := 8 * s.argN0 + s.argN1
    if f % s.width ≠ 0 then failWith .outOfRange s
    else
      let q := f / s.width
      finish ((s.setRes0Wide (q / s.channels)).setRes1 (word (q % s.channels)))

/-- BYTE_RANGE (41_translator.md R124): ARG0 = startSample, ARG1 = sampleCount. -/
def execByteRange (s : State) : Answer :=
  if s.status.opened = false then failWith .notReady s
  else if s.argN1 = 0 ∨ s.totalFrames < s.argN0 + s.argN1 then failWith .outOfRange s
  else
    let first := (s.argN0 * s.channels * s.width) / 8
    let last := ((s.argN0 + s.argN1) * s.channels * s.width - 1) / 8
    finish ((s.setRes0 (word first)).setRes1 (word last))

end Sys2Proof.Machine
end

