-- ==== Sys2Proof/Machine/Dispatch.lean ====
section
/-! DEFINITION. One arm per command: its meaning. -/

namespace Sys2Proof.Machine

/-- The meaning of a command (30_encoding.md R81). -/
def exec (i : Instr) (s : State) : Host.Outcome State Fault Refusal :=
  match i with
  -- 40_stream.md
  | .openStream => Sys2Proof.Machine.execOpen s
  | .total => Sys2Proof.Machine.execTotal s
  -- 41_translator.md
  | .addrOf => Sys2Proof.Machine.execAddrOf s
  | .indexOf => Sys2Proof.Machine.execIndexOf s
  | .byteRange => Sys2Proof.Machine.execByteRange s
  -- 43_decoder.md
  | .reset ch => Sys2Proof.Machine.execReset ch s
  | .decode ch code => Sys2Proof.Machine.execDecode ch code s
  -- 42_unpacker.md
  | .unpackInit => Sys2Proof.Machine.execUnpackInit s
  | .nextCode => Sys2Proof.Machine.execNextCode s
  -- 43_decoder.md
  | .decodeNext ch => Sys2Proof.Machine.execDecodeNext ch s

end Sys2Proof.Machine
end

