-- ==== Sys2Proof/Machine/HostPort.lean ====
section
/-! DEFINITION. The host's four operations on the block (20_memory.md R61) and the register map (10_state.md R23). -/

namespace Sys2Proof.Machine

/-- What a host read of register r gives, r < 64 (10_state.md R23). CMD and the reserved registers read 0. -/
def State.readReg (r : Nat) (s : State) : Word :=
  match r with
  | 0 => 0
  | 1 => s.status.word
  | 2 => s.arg0
  | 3 => s.arg1
  | 4 => s.arg2
  | 5 => s.arg3
  | 6 => s.arg4
  | 7 => s.res0
  | 8 => s.res1
  | 9 => s.fmt.bps
  | 10 => s.fmt.ch
  | 11 => s.fmt.rate
  | 12 => s.fmt.doff
  | 13 => s.fmt.dlen
  | 14 => s.cursor
  | 15 => s.bufLen
  | 16 => word s.params.bufBytes
  | 17 => word s.params.maxCh
  | _ => 0

/-- A host write of BUF_LEN (10_state.md R30): checked against BUF_BYTES. -/
def State.writeBufLen (v : Word) (s : State) : State :=
  if s.params.bufBytes < v.toNat then s.fail .capacity else (s.setBufLen v).succeed

/-- A host write of CMD: the command that the word encodes runs to completion (10_state.md R24); an illegal word is a
failed command (30_encoding.md R83). -/
def runWord (w : Word) (s : State) : Answer :=
  match decode w with
  | .command i => exec i s
  | .illegal _ => execIllegal s

/-- A host write of v to register r, r < 64 (10_state.md R23). Writes to read-only and reserved registers are ignored
(93_implementation_defined.md U9). -/
def writeReg (r : Nat) (v : Word) (s : State) : Answer :=
  match r with
  | 0 => runWord v s
  | 1 => .next (s.writeStatus v)
  | 2 => .next { s with arg0 := v }
  | 3 => .next { s with arg1 := v }
  | 4 => .next { s with arg2 := v }
  | 5 => .next { s with arg3 := v }
  | 6 => .next { s with arg4 := v }
  | 15 => .next (s.writeBufLen v)
  | _ => .next s

/-- One host operation, complete before the next (20_memory.md R61, R68). An operation outside R61 is refused
(R62). -/
def hostAccess (op : HostOp) (s : State) : Answer :=
  match op with
  | .writeReg r v =>
    if 64 ≤ r then .refused (.noSuchRegister r)
    else if 2 ^ 64 ≤ v then .refused (.valueTooWide v)
    else writeReg r (word v) (s.setReply none)
  | .readReg r =>
    if 64 ≤ r then .refused (.noSuchRegister r)
    else .next (s.setReply (some (.reg (s.readReg r))))
  | .writeBuf i v =>
    if s.params.bufBytes ≤ i then .refused (.noSuchBufferByte i)
    else if 2 ^ 8 ≤ v then .refused (.valueTooWide v)
    else .next ((s.bufWrite i (BitVec.ofNat 8 v)).setReply none)
  | .readBuf i =>
    if s.params.bufBytes ≤ i then .refused (.noSuchBufferByte i)
    else .next (s.setReply (some (.byte (s.bufRead i))))

/-- One input: a host operation or power-on. -/
def takeInput (input : Input) (s : State) : Answer :=
  match input with
  | .host op => hostAccess op s
  | .powerOn => .next s.powerOn

/-- The state whose next input is a host write of the command word w, the other inputs standing behind it. -/
def State.withCommand (w : Word) (s : State) : State :=
  s.setPending (.host (.writeReg 0 w.toNat) :: s.pending)

end Sys2Proof.Machine
end

