-- ==== Sys2Proof/Machine/Step.lean ====
section
/-! DEFINITION. One step of the machine: the oldest input that waits. -/

namespace Sys2Proof.Machine

/-- One step: the block takes the oldest waiting input whole (10_state.md R24, 20_memory.md R68, 70_reset_and_hazards.md
R268). With none waiting it is idle and keeps its state (60_exceptions.md R254). DESIGN CHOICE, safe: log entry 8. -/
def step (s : State) : Host.Outcome State Fault Refusal :=
  match s.pending with
  | [] => .next s
  | input :: rest => takeInput input (s.setPending rest)

/-- s with the table word w as the next command the host writes to CMD; log entry 12 says how a program comes to run
from reset. -/
def State.withFetchWord (s : State) (nbits w : Nat) : State := s.withCommand (tableWord nbits w)

end Sys2Proof.Machine
end

