-- ==== Sys2Proof/Machine/HostLang.lean ====
section
/-! DEFINITION. The language of host programs (30_encoding.md R86, R87): lines, pseudo-instructions and their expansion
to host operations. -/

namespace Sys2Proof.Machine

/-- The register names of 10_state.md R23. -/
inductive RegName where
  | cmd
  | status
  | arg0
  | arg1
  | arg2
  | arg3
  | arg4
  | res0
  | res1
  | fmtBps
  | fmtCh
  | fmtRate
  | fmtDoff
  | fmtDlen
  | cursor
  | bufLen
  | capBuf
  | capCh
  deriving DecidableEq, Repr

/-- A register's index (10_state.md R23). -/
def RegName.index : RegName → Nat
  | .cmd => 0
  | .status => 1
  | .arg0 => 2
  | .arg1 => 3
  | .arg2 => 4
  | .arg3 => 5
  | .arg4 => 6
  | .res0 => 7
  | .res1 => 8
  | .fmtBps => 9
  | .fmtCh => 10
  | .fmtRate => 11
  | .fmtDoff => 12
  | .fmtDlen => 13
  | .cursor => 14
  | .bufLen => 15
  | .capBuf => 16
  | .capCh => 17

/-- A line of a host program (30_encoding.md R86). WR and RD take a register named or numbered: `wrAt` and `rdAt` are the
numbered forms. -/
inductive HostLine where
  | wr (r : RegName) (v : Nat)
  | wrAt (r v : Nat)
  | rd (r : RegName)
  | rdAt (r : Nat)
  | wb (i : Nat) (bytes : List Nat)
  | cmd (i : Instr)
  deriving DecidableEq, Repr

/-- WriteBuf of consecutive bytes from an index (30_encoding.md R86). -/
def writeBytes (i : Nat) : List Nat → List HostOp
  | [] => []
  | v :: rest => .writeBuf i v :: writeBytes (i + 1) rest

/-- The host operations of a line (30_encoding.md R86). -/
def HostLine.ops : HostLine → List HostOp
  | .wr r v => [.writeReg r.index v]
  | .wrAt r v => [.writeReg r v]
  | .rd r => [.readReg r.index]
  | .rdAt r => [.readReg r]
  | .wb i bytes => writeBytes i bytes
  | .cmd i => [.writeReg 0 (encode i).toNat]

/-- The twelve pseudo-instructions (30_encoding.md R87). -/
inductive Pseudo where
  | openStream (b c r o l : Nat)
  | total
  | addrOf (s c : Nat)
  | indexOf (y k : Nat)
  | byteRange (s n : Nat)
  | reset (c : Nat)
  | decode (c i : Nat)
  | unpackInit (y k : Nat)
  | nextCode
  | decodeNext (c : Nat)
  | setBuf (n : Nat) (bytes : List Nat)
  | clearSticky
  deriving DecidableEq, Repr

/-- The exact expansion of a pseudo-instruction (30_encoding.md R87). The words are written out as R87 writes them, not
through `encode`. -/
def Pseudo.expand : Pseudo → List HostLine
  | .openStream b c r o l =>
    [.wr .arg0 b, .wr .arg1 c, .wr .arg2 r, .wr .arg3 o, .wr .arg4 l, .wr .cmd 0x1]
  | .total => [.wr .cmd 0x2]
  | .addrOf s c => [.wr .arg0 s, .wr .arg1 c, .wr .cmd 0x3]
  | .indexOf y k => [.wr .arg0 y, .wr .arg1 k, .wr .cmd 0x4]
  | .byteRange s n => [.wr .arg0 s, .wr .arg1 n, .wr .cmd 0x5]
  | .reset c => [.wr .cmd ((c <<< 16) ||| 0x6)]
  | .decode c i => [.wr .cmd ((c <<< 16) ||| (i <<< 8) ||| 0x7)]
  | .unpackInit y k => [.wr .arg0 y, .wr .arg1 k, .wr .cmd 0x8]
  | .nextCode => [.wr .cmd 0x9]
  | .decodeNext c => [.wr .cmd ((c <<< 16) ||| 0xA)]
  | .setBuf n bytes => [.wb 0 bytes, .wr .bufLen n]
  | .clearSticky => [.wr .status 0x200]

/-- The host operations of a pseudo-instruction. -/
def Pseudo.ops (p : Pseudo) : List HostOp := (p.expand.map HostLine.ops).flatten

/-- A list of host operations, one after the other, stopping at the first refusal (20_memory.md R62, R68). -/
def runOps : List HostOp → State → Answer
  | [], s => .next s
  | op :: rest, s =>
    match hostAccess op s with
    | .next t => runOps rest t
    | .fault r => .fault r
    | .refused r => .refused r

/-- The state in which a host program waits to be taken, behind what waits already. -/
def State.withProgram (ops : List HostOp) (s : State) : State := s.setPending (s.pending ++ ops.map .host)

end Sys2Proof.Machine
end

