-- ==== Sys2Proof/Machine/Segment.lean ====
section
/-! DEFINITION. The host segment procedure (46_host_segment.md): a program of the host over the block's operations, not
part of the block (00_scope.md R6). What the host reads from a register is taken from the state directly, since a host
read has no side effect (20_memory.md R65): log entry 16. -/

namespace Sys2Proof.Machine

/-- The host's byte source `readBytes(offset, length)` (20_memory.md R72); none when it fails. -/
abbrev ByteSource := Nat → Nat → Option (List Byte)

/-- What a segment call returns (46_host_segment.md R220, R230). -/
inductive SegmentResult where
  /-- A PcmSegment: the interleaved samples, startSample and sampleCount (46_host_segment.md R228). -/
  | segment (samples : List (BitVec 16)) (startSample sampleCount : Nat)
  /-- The call fails as a whole with an error code (46_host_segment.md R230). -/
  | failed (e : ErrCode)
  /-- A host operation was refused: an argument or a command word of 2^64 or more (20_memory.md R62; log entry 21). -/
  | refused (r : Refusal)
  deriving DecidableEq, Repr

/-- A segment call: its result, the state it leaves, and the (offset, length) of each `readBytes` it made, in order
(46_host_segment.md R231). -/
structure SegmentRun where
  result : SegmentResult
  state  : State
  reads  : List (Nat × Nat)
  deriving DecidableEq, Repr

/-- `readBytes` with its failure on a short read (20_memory.md R72): exactly `len` bytes, or IoError. -/
def ByteSource.read (rd : ByteSource) (offset len : Nat) : Option (List Byte) :=
  match rd offset len with
  | some bytes => if bytes.length = len then some bytes else none
  | none => none

/-- The host operations that put the fetched bytes in BUF and set BUF_LEN (46_host_segment.md R223). -/
def loadOps (bytes : List Byte) : List HostOp :=
  writeBytes 0 (bytes.map BitVec.toNat) ++ [.writeReg RegName.bufLen.index bytes.length]

/-- The host operations that RESET every channel 0..C−1 (46_host_segment.md R226). -/
def resetOps (c : Nat) : List HostOp := ((List.range c).map fun k => (Pseudo.reset k).ops).flatten

/-- The decode loop of R224 from code t on, `n` codes to go, on C channels: DECODE_NEXT (t mod C), then out[t]. Where a
DECODE_NEXT word is refused it stops in the state before that word: log entry 21. -/
def decodeLoop (c : Nat) : Nat → Nat → List (BitVec 16) → State → SegmentResult × List (BitVec 16) × State
  | 0, _, out, s => (.segment [] 0 0, out, s)
  | n + 1, t, out, s =>
    match runOps (Pseudo.decodeNext (t % c)).ops s with
    | .next u =>
      if u.status.err = .ok then decodeLoop c n (t + 1) (out ++ [u.res0.setWidth 16]) u
      else (.failed u.status.err, out, u)
    | .fault r => nomatch r
    | .refused r => (.refused r, out, s)

/-- Steps (3) to (6) of R224, from the state s in which the fetched bytes are known: fill BUF, start the reader, RESET
the channels unless the call continues the one before (46_host_segment.md R229), take exactly n·C codes. Where an
operation before the loop is refused the call leaves s, without what those before it wrote: DESIGN CHOICE, log
entry 21. -/
def segmentDecodeFrom (fresh : Bool) (start count : Nat) (bytes : List Byte) (s : State) : SegmentResult × State :=
  let c := s.channels
  let setup := loadOps bytes ++ (Pseudo.unpackInit 0 ((start * c * s.width) % 8)).ops
    ++ (if fresh then resetOps c else [])
  match runOps setup s with
  | .fault r => nomatch r
  | .refused r => (.refused r, s)
  | .next t =>
    match decodeLoop c (count * c) 0 [] t with
    | (.failed e, _, u) => (.failed e, u)
    | (.refused r, _, u) => (.refused r, u)
    | (.segment _ _ _, out, u) => (.segment out start count, u)

/-- SegmentDecode(start, count) (46_host_segment.md R224), with the RESETs when `fresh`. Where an operand of BYTE_RANGE is
refused the call leaves s, without what was written before it: DESIGN CHOICE, log entry 21. -/
def segmentDecode (rd : ByteSource) (fresh : Bool) (start count : Nat) (s : State) : SegmentRun :=
  if count = 0 then { result := .segment [] start 0, state := s, reads := [] }
  else if s.status.opened = false then { result := .failed .notReady, state := s, reads := [] }
  else
    match runOps (Pseudo.byteRange start count).ops s with
    | .fault r => nomatch r
    | .refused r => { result := .refused r, state := s, reads := [] }
    | .next t =>
      if t.status.err ≠ .ok then { result := .failed t.status.err, state := t, reads := [] }
      else
        let first := t.res0.toNat
        let len := t.res1.toNat - first + 1
        let offset := t.fmt.doff.toNat + first
        if t.params.bufBytes < len then { result := .failed .capacity, state := t, reads := [] }
        else
          match rd.read offset len with
          | none => { result := .failed .ioError, state := t, reads := [(offset, len)] }
          | some bytes =>
            let r := segmentDecodeFrom fresh start count bytes t
            { result := r.1, state := r.2, reads := [(offset, len)] }

/-- What the host keeps for the continuation mode (46_host_segment.md R229): whether the caller turned it on, and
startSample + sampleCount of the previous call while nothing has ended the continuation since, so that the same stream
is still open. -/
structure SegmentHost where
  continuation : Bool
  previousEnd  : Option Nat
  deriving DecidableEq, Repr

/-- The mode is off unless the caller turns it on (46_host_segment.md R229). -/
def SegmentHost.initial : SegmentHost := { continuation := false, previousEnd := none }

/-- The continuation is ended: the next call RESETs (46_host_segment.md R229). -/
def SegmentHost.interrupted (h : SegmentHost) : SegmentHost := { h with previousEnd := none }

/-- Whether a call skips the RESETs (46_host_segment.md R229). -/
def SegmentHost.continues (h : SegmentHost) (start : Nat) : Bool :=
  h.continuation && h.previousEnd == some start

/-- `readSamples(stream, start, count)` (46_host_segment.md R220), with the continuation mode of R229. A failed call
ends the continuation, and so does a refused one (DESIGN CHOICE, log entry 21); an empty call issues no command and leaves it as it was: DESIGN CHOICE, log entry 16. -/
def readSamples (rd : ByteSource) (h : SegmentHost) (start count : Nat) (s : State) : SegmentHost × SegmentRun :=
  let run := segmentDecode rd (!h.continues start) start count s
  match run.result with
  | .segment _ _ _ => (if count = 0 then h else { h with previousEnd := some (start + count) }, run)
  | .failed _ => (h.interrupted, run)
  | .refused _ => (h.interrupted, run)

/-- Whether what happened between two calls ends the continuation (46_host_segment.md R229); t is the state it left. An
OPEN ends it, successful or not; so does a command that RESETs a channel, which a failed RESET does not
(60_exceptions.md R242); so does power-on, after which the stream is not open (70_reset_and_hazards.md R260). DEDUCED:
log entry 20. -/
def endsContinuation (x : Input) (t : State) : Bool :=
  match x with
  | .powerOn => true
  | .host (.writeReg r v) =>
    if r = RegName.cmd.index then
      match decode (word v) with
      | .command .openStream => true
      | .command (.reset _) => t.status.err == .ok
      | .command .total | .command .addrOf | .command .indexOf | .command .byteRange | .command (.decode _ _)
      | .command .unpackInit | .command .nextCode | .command (.decodeNext _) => false
      | .illegal _ => false
    else false
  | .host (.readReg _) | .host (.writeBuf _ _) | .host (.readBuf _) => false

/-- A host that makes segment calls, with the block it drives. -/
structure SegmentSession where
  host  : SegmentHost
  block : State
  deriving DecidableEq, Repr

/-- The caller turns the continuation mode on or off (46_host_segment.md R229). -/
def SegmentSession.setMode (on : Bool) (v : SegmentSession) : SegmentSession :=
  { v with host := { v.host with continuation := on } }

/-- An access of the host, or power-on, between two calls: the host notes whether it ends the continuation
(46_host_segment.md R229). -/
def SegmentSession.input (x : Input) (v : SegmentSession) : Host.Outcome SegmentSession Fault Refusal :=
  match takeInput x v.block with
  | .next t => .next { host := if endsContinuation x t then v.host.interrupted else v.host, block := t }
  | .fault r => .fault r
  | .refused r => .refused r

/-- A segment call on the session's stream (46_host_segment.md R220, R229). -/
def SegmentSession.call (rd : ByteSource) (start count : Nat) (v : SegmentSession) : SegmentSession × SegmentRun :=
  let r := readSamples rd v.host start count v.block
  ({ host := r.1, block := r.2.state }, r.2)

end Sys2Proof.Machine
end

