-- ==== Sys2Proof/Safety.lean ====
section
/-! DEFINITION. What counts as a safe state and a safe run, in the terms the claims use. -/

namespace Sys2Proof.Machine

/-- Every float word of the decoder holds a mantissa of 32 or more (10_state.md R33). -/
abbrev Float11.Legal (f : Float11) : Prop := 32 ≤ f.m.toNat

/-- The legal ranges of a decoder state (10_state.md R33). -/
abbrev DecoderState.Legal (d : DecoderState) : Prop :=
  (544 ≤ d.yu.toNat ∧ d.yu.toNat ≤ 5120) ∧
  (34816 ≤ d.yl.toNat ∧ d.yl.toNat ≤ 327680) ∧
  d.ap.toNat ≤ 511 ∧ d.dms.toNat ≤ 3584 ∧ d.dml.toNat ≤ 14336 ∧
  (-27648 ≤ d.a1.toInt ∧ d.a1.toInt ≤ 27648) ∧
  (-12288 ≤ d.a2.toInt ∧ d.a2.toInt ≤ 12288) ∧
  d.sr1.Legal ∧ d.sr2.Legal ∧
  d.dq1.Legal ∧ d.dq2.Legal ∧ d.dq3.Legal ∧ d.dq4.Legal ∧ d.dq5.Legal ∧ d.dq6.Legal

/-- The parameter G726 runs the spec's datapath on tables whose entries are in the ranges of 44_quantizer_tables.md R205.
The default is such a one, and so is a corrected copy of the tables within those ranges. -/
def G726.inRange (g : G726) : Bool :=
  decide (g.datapath = .transcription) &&
  [2, 3, 4, 5].all fun b => (List.range (2 ^ b)).all fun i =>
    decide (-2048 ≤ tblDqln g.tables b i ∧ tblDqln g.tables b i ≤ 566 ∧
      -22 ≤ tblW g.tables b i ∧ tblW g.tables b i ≤ 1122 ∧ 0 ≤ tblF g.tables b i ∧ tblF g.tables b i ≤ 7)

/-- The same as a proposition. -/
abbrev G726.InRange (g : G726) : Prop := g.inRange = true

/-- The format registers hold a format that OPEN accepts while a stream is open, and zeros before the first OPEN
(10_state.md R28, 40_stream.md R101, 70_reset_and_hazards.md R260). -/
abbrev State.FormatLegal (s : State) : Prop :=
  (s.status.opened = true →
    (s.width = 2 ∨ s.width = 3 ∨ s.width = 4 ∨ s.width = 5) ∧
    1 ≤ s.channels ∧ s.channels ≤ s.params.maxCh ∧ 1 ≤ s.fmt.rate.toNat ∧
    (8 * s.dataLen) % (s.width * s.channels) = 0) ∧
  (s.status.opened = false → s.fmt = Format.reset)

/-- BUF is in canonical form and no byte at BUF_BYTES or above is listed; BUF_LEN and CURSOR are within their bounds
(20_memory.md R60, 10_state.md R29, R30). -/
abbrev State.BufferLegal (s : State) : Prop :=
  Memory.wf s.buf = true ∧ (∀ cell ∈ s.buf, cell.1 < s.params.bufBytes) ∧
  s.bufLen.toNat ≤ s.params.bufBytes ∧ s.cursor.toNat ≤ 8 * s.params.bufBytes + 7

/-- The listed decoder states are in canonical form, are of channels the block has and, where G726 is in range, are
legal; every READY channel is one of the open stream and has a listed state (10_state.md R33, R34, R37). -/
abbrev State.DecodersLegal (s : State) : Prop :=
  keysRising s.decoders = true ∧ (∀ e ∈ s.decoders, e.1 < s.params.maxCh ∧ (s.params.g726.InRange → e.2.Legal)) ∧
  rising s.ready = true ∧
  (∀ c ∈ s.ready, s.status.opened = true ∧ c < s.channels ∧ (sparseFind c s.decoders).isSome = true)

/-- The invariant of the block: what every state reached from reset satisfies. The block never writes code 4 to
STATUS.ERR (60_exceptions.md R240). -/
abbrev State.Inv (s : State) : Prop :=
  s.params.WF ∧ s.status.err ≠ .ioError ∧ s.FormatLegal ∧ s.BufferLegal ∧ s.DecodersLegal

/-- The states a block can reach: from hardware reset with legal parameters, by any inputs. -/
inductive Reachable : State → Prop where
  | reset (p : Params) : p.WF → Reachable (State.resetWith p)
  | input (s t : State) (x : Input) : Reachable s → takeInput x s = .next t → Reachable t

/-- The seek-accuracy property, with its two open parameters: from `window` samples after a seek with a fresh RESET on,
the samples differ from the sequential decode's, in a block with the parameters g and pcmShift, by less than `threshold` (43_decoder.md R185). It is no rule of the
block and nothing here assumes it. -/
def SeekConverges (g : G726) (pcmShift window threshold : Nat) : Prop :=
  ∀ (b : Nat) (codes : List Nat) (n k : Nat), legalWidth b = true → (∀ i ∈ codes, i < 2 ^ b) →
    window ≤ k → n + k < codes.length →
    ((decodeRun g pcmShift b codes DecoderState.reset).1.getD (n + k) 0
      - (decodeRun g pcmShift b (codes.drop n) DecoderState.reset).1.getD k 0).natAbs < threshold

/-- The property with the source's open constants (92_eei_decisions.md D30). -/
def SeekConvergence : Prop :=
  SeekConverges Config.params.g726 Config.params.pcmShift Config.convergenceWindow Config.convergenceThreshold

end Sys2Proof.Machine
end

