-- ==== Sys2Proof/Certificates/Slice0/Obligations.lean ====
section
/-! DEFINITION. The statements for the provers. -/

open Sys2Proof Sys2Proof.Machine

namespace Sys2Proof.Claims

/-- s with STATUS as a failed command leaves it: ERR is the code, STICKY is 1 (60_exceptions.md R242). -/
abbrev failed (e : ErrCode) (s : State) : State :=
  { s with status := { s.status with err := e, sticky := true } }

/-- STATUS as a successful command leaves it: ERR is 0 (60_exceptions.md R243). -/
abbrev okStatus (s : State) : Status := { s.status with err := .ok }

/-- s once its next input, a host write, is taken off the inputs that wait. -/
abbrev taken (rest : List Input) (s : State) : State := { s with pending := rest, reply := none }

/-- The next input is the host's write of the word w to CMD. -/
abbrev CommandNext (s : State) (w : Nat) : Prop :=
  w < 2 ^ 64 ∧ ∃ rest, s.pending = .host (.writeReg 0 w) :: rest

/-- The next input is power-on. -/
abbrev PowerOnNext (s : State) : Prop := ∃ rest, s.pending = .powerOn :: rest

/-- The four bitrate modes (00_scope.md R9). -/
abbrev Mode (b : Nat) : Prop := b = 2 ∨ b = 3 ∨ b = 4 ∨ b = 5

/-- What a host read of register r gives (10_state.md R23, the column 'holds'). -/
def registerValue (s : State) (r : Nat) : Nat :=
  if r = 1 then s.status.err.code + 256 * s.status.opened.toNat + 512 * s.status.sticky.toNat
  else if r = 2 then s.arg0.toNat
  else if r = 3 then s.arg1.toNat
  else if r = 4 then s.arg2.toNat
  else if r = 5 then s.arg3.toNat
  else if r = 6 then s.arg4.toNat
  else if r = 7 then s.res0.toNat
  else if r = 8 then s.res1.toNat
  else if r = 9 then s.fmt.bps.toNat
  else if r = 10 then s.fmt.ch.toNat
  else if r = 11 then s.fmt.rate.toNat
  else if r = 12 then s.fmt.doff.toNat
  else if r = 13 then s.fmt.dlen.toNat
  else if r = 14 then s.cursor.toNat
  else if r = 15 then s.bufLen.toNat
  else if r = 16 then s.params.bufBytes
  else if r = 17 then s.params.maxCh
  else 0

/-- A host operation that 20_memory.md R61 does not have (R62). -/
def Outside (p : Params) : HostOp → Prop
  | .writeReg r v => 64 ≤ r ∨ 2 ^ 64 ≤ v
  | .readReg r => 64 ≤ r
  | .writeBuf i v => p.bufBytes ≤ i ∨ 2 ^ 8 ≤ v
  | .readBuf i => p.bufBytes ≤ i

/-- The first check of 60_exceptions.md R241 that the command does not pass in the state s; ok where it passes all. -/
def firstError (s : State) : Instr → ErrCode
  | .openStream =>
    if ¬ Mode s.arg0.toNat then .unsupportedMode
    else if s.arg1.toNat = 0 ∨ s.arg2.toNat = 0 then .format
    else if s.params.maxCh < s.arg1.toNat then .capacity
    else if (8 * s.arg4.toNat) % (s.arg0.toNat * s.arg1.toNat) ≠ 0 then .truncated
    else .ok
  | .total => if s.status.opened = false then .notReady else .ok
  | .addrOf =>
    if s.status.opened = false then .notReady
    else if s.fmt.ch.toNat ≤ s.arg1.toNat then .outOfRange
    else if s.fmt.dlen.toNat < (s.arg0.toNat * s.fmt.ch.toNat + s.arg1.toNat) * s.fmt.bps.toNat / 8 then .outOfRange
    else .ok
  | .indexOf =>
    if s.status.opened = false then .notReady
    else if 7 < s.arg1.toNat then .outOfRange
    else if s.fmt.dlen.toNat < s.arg0.toNat then .outOfRange
    else if (8 * s.arg0.toNat + s.arg1.toNat) % s.fmt.bps.toNat ≠ 0 then .outOfRange
    else .ok
  | .byteRange =>
    if s.status.opened = false then .notReady
    else if s.arg1.toNat = 0 then .outOfRange
    else if 8 * s.fmt.dlen.toNat / (s.fmt.bps.toNat * s.fmt.ch.toNat) < s.arg0.toNat + s.arg1.toNat then .outOfRange
    else .ok
  | .unpackInit =>
    if 7 < s.arg1.toNat then .outOfRange
    else if s.params.bufBytes < s.arg0.toNat then .outOfRange
    else .ok
  | .nextCode =>
    if s.status.opened = false then .notReady
    else if 8 * s.bufLen.toNat < s.cursor.toNat + s.fmt.bps.toNat then .truncated
    else .ok
  | .reset c =>
    if s.status.opened = false then .notReady
    else if s.fmt.ch.toNat ≤ c then .outOfRange
    else .ok
  | .decode c i =>
    if s.status.opened = false then .notReady
    else if s.fmt.ch.toNat ≤ c then .outOfRange
    else if 2 ^ s.fmt.bps.toNat ≤ i then .illegalCommand
    else if s.isReady c = false then .notReady
    else .ok
  | .decodeNext c =>
    if s.status.opened = false then .notReady
    else if s.fmt.ch.toNat ≤ c then .outOfRange
    else if s.isReady c = false then .notReady
    else if 8 * s.bufLen.toNat < s.cursor.toNat + s.fmt.bps.toNat then .truncated
    else .ok

/-- One access that writes STATUS.ERR: a host write of a word to CMD (a command, legal or illegal) or of a value to
BUF_LEN. -/
inductive Checked where
  | command (w : Word)
  | bufLen (v : Word)
  deriving DecidableEq, Repr

/-- The access, done: the state it leaves; none where the command does not answer a next state. -/
def Checked.run (a : Checked) (s : State) : Option State :=
  match a with
  | .command w =>
    match runWord w s with
    | .next t => some t
    | .fault _ => none
    | .refused _ => none
  | .bufLen v => some (s.writeBufLen v)

/-- A list of such accesses, one after the other: the code each leaves in STATUS.ERR, and the state after. -/
def runAll : List Checked → State → Option (List ErrCode × State)
  | [], s => some ([], s)
  | a :: rest, s =>
    match a.run s with
    | none => none
    | some t =>
      match runAll rest t with
      | none => none
      | some r => some (t.status.err :: r.1, r.2)

/-- The state after n NEXT_CODE commands that all succeed. -/
def afterCodes : Nat → State → Option State
  | 0, s => some s
  | n + 1, s =>
    match exec .nextCode s with
    | .next t => if t.status.err = .ok then afterCodes n t else none
    | .fault _ => none
    | .refused _ => none

/-- The float zero {0, 0, 32} (43_decoder.md R161). -/
def floatZero : Float11 := { s := false, e := 0, m := 32 }

/-- The values RESET writes, as 43_decoder.md R161 lists them. -/
def resetValues : DecoderState :=
  { yu := 544, yl := 34816, ap := 0, dms := 0, dml := 0, td := false, a1 := 0, a2 := 0
    b1 := 0, b2 := 0, b3 := 0, b4 := 0, b5 := 0, b6 := 0, pk1 := false, pk2 := false
    sr1 := floatZero, sr2 := floatZero
    dq1 := floatZero, dq2 := floatZero, dq3 := floatZero, dq4 := floatZero, dq5 := floatZero, dq6 := floatZero }

/-- Every decoder state and READY bit but channel c's reads the same. -/
def OtherChannelsKept (c : Nat) (s t : State) : Prop :=
  ∀ k, k ≠ c → t.decoder k = s.decoder k ∧ t.isReady k = s.isReady k

/-- What no command changes: ARG0..ARG4, BUF_LEN, the block's parameters, every byte of BUF, and what waits on the host's
side. -/
def OperandsAndBufferKept (s t : State) : Prop :=
  t.arg0 = s.arg0 ∧ t.arg1 = s.arg1 ∧ t.arg2 = s.arg2 ∧ t.arg3 = s.arg3 ∧ t.arg4 = s.arg4 ∧
  t.bufLen = s.bufLen ∧ t.params = s.params ∧ (∀ a, t.bufRead a = s.bufRead a) ∧
  t.pending = s.pending ∧ t.reply = s.reply

end Sys2Proof.Claims

open Sys2Proof.Claims

/-! ### Encoding -/

/-- Words written out from the bit places of 30_encoding.md R80 decode to the commands they stand for. -/
def Obligations.WrittenOutWordsDecode : Prop :=
  decode 0x0000000000000001 = .command .openStream ∧
  decode 0x0000000000000002 = .command .total ∧
  decode 0x0000000000000003 = .command .addrOf ∧
  decode 0x0000000000000004 = .command .indexOf ∧
  decode 0x0000000000000005 = .command .byteRange ∧
  decode 0x0000000000010006 = .command (.reset 1) ∧
  decode 0x00000000000A1F07 = .command (.decode 10 31) ∧
  decode 0x0000000000000008 = .command .unpackInit ∧
  decode 0x0000000000000009 = .command .nextCode ∧
  decode 0x000000000002000A = .command (.decodeNext 2) ∧
  decode 0x0000000000002007 = .illegal .reservedField

/-- Decoding the word of a well-formed command gives the command back, with every operand. -/
def Obligations.DecodeOfEncodeIsTheCommand : Prop :=
  ∀ i : Instr, i.WellFormed → decode (encode i) = .command i

/-- A legal word is the word of the command it decodes to, and that command is well formed. -/
def Obligations.EncodeOfDecodeIsTheWord : Prop :=
  ∀ (w : Word) (i : Instr), decode w = .command i → i.WellFormed ∧ encode i = w

/-- 30_encoding.md R82: the checks (1) to (5), the masks, and the check of CODE against 2^B at execution. -/
def Obligations.WordsDecodeByFieldChecksAndMasks : Prop :=
  (∀ w : Word,
    let op := w.toNat % 16
    let z0 := w.toNat / 2 ^ 4 % 2 ^ 4
    let code := w.toNat / 2 ^ 8 % 2 ^ 5
    let z1 := w.toNat / 2 ^ 13 % 2 ^ 3
    let ch := w.toNat / 2 ^ 16 % 2 ^ 16
    let z2 := w.toNat / 2 ^ 32
    let legal := 1 ≤ op ∧ op ≤ 10 ∧ z0 = 0 ∧ z1 = 0 ∧ z2 = 0 ∧ (op ≠ 7 → code = 0) ∧
      (op ≠ 6 → op ≠ 7 → op ≠ 10 → ch = 0)
    (¬ legal → ∃ why, decode w = .illegal why) ∧
    (legal → op = 1 → decode w = .command .openStream) ∧
    (legal → op = 2 → decode w = .command .total) ∧
    (legal → op = 3 → decode w = .command .addrOf) ∧
    (legal → op = 4 → decode w = .command .indexOf) ∧
    (legal → op = 5 → decode w = .command .byteRange) ∧
    (legal → op = 6 → decode w = .command (.reset ch)) ∧
    (legal → op = 7 → decode w = .command (.decode ch code)) ∧
    (legal → op = 8 → decode w = .command .unpackInit) ∧
    (legal → op = 9 → decode w = .command .nextCode) ∧
    (legal → op = 10 → decode w = .command (.decodeNext ch))) ∧
  (∀ w : Word,
    (w &&& 0xFFFFFFFFFFFFFFFF = 0x1 ↔ decode w = .command .openStream) ∧
    (w &&& 0xFFFFFFFFFFFFFFFF = 0x2 ↔ decode w = .command .total) ∧
    (w &&& 0xFFFFFFFFFFFFFFFF = 0x3 ↔ decode w = .command .addrOf) ∧
    (w &&& 0xFFFFFFFFFFFFFFFF = 0x4 ↔ decode w = .command .indexOf) ∧
    (w &&& 0xFFFFFFFFFFFFFFFF = 0x5 ↔ decode w = .command .byteRange) ∧
    (w &&& 0xFFFFFFFF0000FFFF = 0x6 ↔ ∃ ch, decode w = .command (.reset ch)) ∧
    (w &&& 0xFFFFFFFF0000E0FF = 0x7 ↔ ∃ ch code, decode w = .command (.decode ch code)) ∧
    (w &&& 0xFFFFFFFFFFFFFFFF = 0x8 ↔ decode w = .command .unpackInit) ∧
    (w &&& 0xFFFFFFFFFFFFFFFF = 0x9 ↔ decode w = .command .nextCode) ∧
    (w &&& 0xFFFFFFFF0000FFFF = 0xA ↔ ∃ ch, decode w = .command (.decodeNext ch))) ∧
  (∀ (s : State) (c i : Nat), s.status.opened = true → c < s.fmt.ch.toNat → 2 ^ s.fmt.bps.toNat ≤ i →
    exec (.decode c i) s = .next (failed .illegalCommand s))

/-- 30_encoding.md R83: an illegal word is executed as a failed command with IllegalCommand, code 5, and nothing else
changes. -/
def Obligations.IllegalWordsChangeOnlyStatus : Prop :=
  ErrCode.illegalCommand.code = 5 ∧
  ∀ (s : State) (w : Nat) (rest : List Input) (why : Illegal), w < 2 ^ 64 →
    s.pending = .host (.writeReg 0 w) :: rest → decode (BitVec.ofNat 64 w) = .illegal why →
    step s = .next (failed .illegalCommand (taken rest s))

/-- The step: with nothing pending the block is idle; power-on resets it; a host write of a legal word to CMD runs the
command it decodes to, on the state with that input taken. (The inputs that wait are the model's: log entries 8
and 10.) -/
def Obligations.StepRunsTheDecodedCommand : Prop :=
  (∀ s : State, s.pending = [] → step s = .next s) ∧
  (∀ (s : State) (rest : List Input), s.pending = .powerOn :: rest → step s = .next (taken rest s).powerOn) ∧
  (∀ (s : State) (w : Nat) (rest : List Input) (i : Instr), w < 2 ^ 64 →
    s.pending = .host (.writeReg 0 w) :: rest → decode (BitVec.ofNat 64 w) = .command i →
    step s = exec i (taken rest s))

/-- The next step after a word is placed as the next command runs what the decoder reads from it, and leaves the other
inputs waiting. (How a program is placed is the model's: log entry 12.) -/
def Obligations.FetchWordRunsNext : Prop :=
  ∀ (s : State) (nbits w : Nat) (i : Instr), decodeTableWord nbits w = some i →
    step (s.withFetchWord nbits w) = exec i { s with reply := none }

/-! ### The host's accesses -/

/-- A host read of register r < 64 returns what the register map says and changes nothing: CMD and the reserved
registers read 0, CAP_BUF and CAP_CH the parameters. -/
def Obligations.HostReadsFollowTheRegisterMap : Prop :=
  ∀ (s : State) (r : Nat) (rest : List Input), s.params.WF → r < 64 →
    s.pending = .host (.readReg r) :: rest →
    ∃ v : Word, v.toNat = registerValue s r ∧
      step s = .next { s with pending := rest, reply := some (.reg v) }

/-- A host write of an ARG register is held whole; a host write of a read-only or reserved register is ignored. -/
def Obligations.HostWritesFollowTheRegisterMap : Prop :=
  ∀ (s : State) (r v : Nat) (rest : List Input), r < 64 → v < 2 ^ 64 →
    s.pending = .host (.writeReg r v) :: rest →
    (r = 2 → step s = .next { taken rest s with arg0 := BitVec.ofNat 64 v }) ∧
    (r = 3 → step s = .next { taken rest s with arg1 := BitVec.ofNat 64 v }) ∧
    (r = 4 → step s = .next { taken rest s with arg2 := BitVec.ofNat 64 v }) ∧
    (r = 5 → step s = .next { taken rest s with arg3 := BitVec.ofNat 64 v }) ∧
    (r = 6 → step s = .next { taken rest s with arg4 := BitVec.ofNat 64 v }) ∧
    (7 ≤ r → r ≠ 15 → step s = .next (taken rest s))

/-- 10_state.md R25: the fields of STATUS, who writes them, and their reset values. -/
def Obligations.StatusRegisterFields : Prop :=
  (∀ s : State,
    (s.readReg 1).toNat % 16 = s.status.err.code ∧ (s.readReg 1).toNat / 2 ^ 4 % 2 ^ 4 = 0 ∧
    (s.readReg 1).getLsbD 8 = s.status.opened ∧ (s.readReg 1).getLsbD 9 = s.status.sticky ∧
    (s.readReg 1).toNat / 2 ^ 10 = 0) ∧
  (∀ (s : State) (v : Nat) (rest : List Input), v < 2 ^ 64 → s.pending = .host (.writeReg 1 v) :: rest →
    step s = .next { taken rest s with
      status := { s.status with sticky := s.status.sticky && !(v.testBit 9) } }) ∧
  (∀ (i : Instr) (s t : State), exec i s = .next t →
    t.status.err = firstError s i ∧ t.status.sticky = (s.status.sticky || decide (firstError s i ≠ .ok)) ∧
    (i = .openStream → firstError s i = .ok → t.status.opened = true)) ∧
  (∀ (s : State) (w : Word) (why : Illegal), decode w = .illegal why →
    runWord w s = .next (failed .illegalCommand s)) ∧
  (∀ (s : State) (v : Nat) (rest : List Input), v < 2 ^ 64 → s.params.bufBytes < v →
    s.pending = .host (.writeReg 15 v) :: rest →
    ∃ t, step s = .next t ∧ t.status.sticky = true) ∧
  (∀ s t : State, step s = .next t → s.status.sticky = true → t.status.sticky = false →
    PowerOnNext s ∨
      ∃ v rest, s.pending = .host (.writeReg 1 v) :: rest ∧ v.testBit 9 = true) ∧
  (∀ s t : State, step s = .next t → s.status.opened = false → t.status.opened = true →
    ∃ w, CommandNext s w ∧ decode (BitVec.ofNat 64 w) = .command .openStream ∧ t.status.err = .ok) ∧
  (∀ s t : State, step s = .next t → s.status.opened = true → t.status.opened = false → PowerOnNext s) ∧
  (∀ p : Params, ((State.resetWith p).readReg 1).toNat = 0)

/-- 10_state.md R30: a write of BUF_LEN up to BUF_BYTES is taken and sets ERR to 0; a larger one is refused with code 7
(Capacity) and STICKY; and no code reaches past flat bit index 8·BUF_LEN. -/
def Obligations.BufLenWritesAreChecked : Prop :=
  (∀ (s : State) (v : Nat) (rest : List Input), v < 2 ^ 64 → s.pending = .host (.writeReg 15 v) :: rest →
    (v ≤ s.params.bufBytes →
      step s = .next { taken rest s with bufLen := BitVec.ofNat 64 v, status := okStatus s }) ∧
    (s.params.bufBytes < v → step s = .next (failed .capacity (taken rest s)))) ∧
  ErrCode.capacity.code = 7 ∧
  (∀ (s t : State) (b v : Nat), s.takeCode b = some (v, t) → s.cursor.toNat + b ≤ 8 * s.bufLen.toNat)

/-- A byte the host writes to BUF reads back, every other byte reads as before, and nothing else changes. -/
def Obligations.WrittenByteReadsBack : Prop :=
  ∀ (s : State) (i v : Nat) (rest : List Input), i < s.params.bufBytes → v < 2 ^ 8 →
    s.pending = .host (.writeBuf i v) :: rest →
    ∃ t, step s = .next t ∧ (t.bufRead i).toNat = v ∧ (∀ a, a ≠ i → t.bufRead a = s.bufRead a) ∧
      t = { taken rest s with buf := t.buf } ∧
      (∀ rest', hostAccess (.readBuf i) { t with pending := rest' }
        = .next { t with pending := rest', reply := some (.byte (BitVec.ofNat 8 v)) })

/-- 20_memory.md R62: exactly the operations outside R61 are refused; there is no step. -/
def Obligations.AccessesThatDoNotExistAreRefused : Prop :=
  ∀ (s : State) (op : HostOp) (rest : List Input), s.pending = .host op :: rest →
    ((∃ r, step s = .refused r) ↔ Outside s.params op)

/-- The decoder states and READY are hidden: what a host read returns does not depend on them. -/
def Obligations.HiddenStateIsUnreadable : Prop :=
  ∀ (s t : State) (ds : List (Nat × DecoderState)) (rd : List Nat) (op : HostOp),
    (∃ r, op = .readReg r) ∨ (∃ i, op = .readBuf i) → hostAccess op s = .next t →
    hostAccess op { s with decoders := ds, ready := rd } = .next { t with decoders := ds, ready := rd }

/-! ### How commands end -/

/-- 60_exceptions.md R242: a command that ends with an error sets ERR and STICKY and changes nothing else, be it a
command of the opcode table or an illegal word. -/
def Obligations.FailedCommandsChangeOnlyStatus : Prop :=
  (∀ (i : Instr) (s t : State), exec i s = .next t → t.status.err ≠ .ok → t = failed t.status.err s) ∧
  (∀ (w : Word) (s t : State), runWord w s = .next t → t.status.err ≠ .ok → t = failed t.status.err s)

/-- 60_exceptions.md R243: a command that succeeds sets ERR to 0 and keeps STICKY; so after a sequence of writes
of CMD and BUF_LEN ERR is the last one's code and STICKY tells whether one of them failed or it was set before. -/
def Obligations.SuccessfulCommandsKeepSticky : Prop :=
  (∀ (i : Instr) (s : State), firstError s i = .ok →
    ∃ t, exec i s = .next t ∧ t.status.err = .ok ∧ t.status.sticky = s.status.sticky) ∧
  (∀ (as : List Checked) (s : State), ∃ (errs : List ErrCode) (t : State), runAll as s = some (errs, t) ∧
    errs.length = as.length ∧ (as ≠ [] → errs.getLast? = some t.status.err) ∧
    (t.status.sticky = true ↔ s.status.sticky = true ∨ ∃ e ∈ errs, e ≠ .ok))

/-- 60_exceptions.md R241: every command reports the first check of its row that applies, and an illegal word reports
IllegalCommand whatever the state. -/
def Obligations.FirstFailingCheckIsReported : Prop :=
  (∀ (i : Instr) (s : State), ∃ t, exec i s = .next t ∧ t.status.err = firstError s i) ∧
  (∀ (s : State) (w : Word) (why : Illegal), decode w = .illegal why →
    runWord w s = .next (failed .illegalCommand s))

/-- 40_stream.md R104: without an open stream the eight commands that need the format fail with NotReady, and UNPACK_INIT
works. -/
def Obligations.CommandsWithoutAStreamAreNotReady : Prop :=
  ∀ s : State, s.status.opened = false →
    exec .total s = .next (failed .notReady s) ∧
    exec .addrOf s = .next (failed .notReady s) ∧
    exec .indexOf s = .next (failed .notReady s) ∧
    exec .byteRange s = .next (failed .notReady s) ∧
    exec .nextCode s = .next (failed .notReady s) ∧
    (∀ c, exec (.reset c) s = .next (failed .notReady s)) ∧
    (∀ c i, exec (.decode c i) s = .next (failed .notReady s)) ∧
    (∀ c, exec (.decodeNext c) s = .next (failed .notReady s)) ∧
    (s.arg1.toNat ≤ 7 → s.arg0.toNat ≤ s.params.bufBytes →
      exec .unpackInit s = .next { s with
        cursor := BitVec.ofNat 64 (8 * s.arg0.toNat + s.arg1.toNat), status := okStatus s })

/-! ### Stream format commands -/

/-- 40_stream.md R101: OPEN makes its checks in order and fails with the first that applies; otherwise it latches the
format, sets STATUS.OPEN and clears every READY bit, and changes nothing else but for the channel states, of which R101
says nothing. -/
def Obligations.OpenChecksThenLatchesTheFormat : Prop :=
  decode 0x1 = .command .openStream ∧
  ∀ s : State,
    let b := s.arg0.toNat
    let c := s.arg1.toNat
    let r := s.arg2.toNat
    let l := s.arg4.toNat
    (¬ Mode b → exec .openStream s = .next (failed .unsupportedMode s)) ∧
    (Mode b → c = 0 ∨ r = 0 → exec .openStream s = .next (failed .format s)) ∧
    (Mode b → c ≠ 0 → r ≠ 0 → s.params.maxCh < c → exec .openStream s = .next (failed .capacity s)) ∧
    (Mode b → c ≠ 0 → r ≠ 0 → c ≤ s.params.maxCh → (8 * l) % (b * c) ≠ 0 →
      exec .openStream s = .next (failed .truncated s)) ∧
    (Mode b → c ≠ 0 → r ≠ 0 → c ≤ s.params.maxCh → (8 * l) % (b * c) = 0 →
      ∃ t, exec .openStream s = .next t ∧
        t.fmt = { bps := s.arg0, ch := s.arg1, rate := s.arg2, doff := s.arg3, dlen := s.arg4 } ∧
        t.status = { err := .ok, opened := true, sticky := s.status.sticky } ∧
        (∀ k, t.isReady k = false) ∧
        t = { s with fmt := t.fmt, status := t.status, ready := t.ready, decoders := t.decoders })

/-- 40_stream.md R102: TOTAL gives (8·L) div (B·C), where that number fits RES0. -/
def Obligations.TotalIsTheFrameCount : Prop :=
  decode 0x2 = .command .total ∧
  ∀ s : State,
    (s.status.opened = false → exec .total s = .next (failed .notReady s)) ∧
    (s.status.opened = true → 8 * s.fmt.dlen.toNat / (s.fmt.bps.toNat * s.fmt.ch.toNat) < 2 ^ 64 →
      ∃ t, exec .total s = .next t ∧
        t.res0.toNat = 8 * s.fmt.dlen.toNat / (s.fmt.bps.toNat * s.fmt.ch.toNat) ∧
        t = { s with res0 := t.res0, status := okStatus s })

/-- Where TOTAL or INDEX_OF gives a number that 64 bits do not hold the spec states no RES0: the command completes with
some value there (the model's choice, log entry 7), and everything else is as the rule says. -/
def Obligations.ResultsWiderThanARegisterComplete : Prop :=
  ∀ s : State, s.FormatLegal → s.status.opened = true →
    (2 ^ 64 ≤ 8 * s.fmt.dlen.toNat / (s.fmt.bps.toNat * s.fmt.ch.toNat) →
      ∃ t, exec .total s = .next t ∧
        t = { s with res0 := t.res0, freeIndex := t.freeIndex, status := okStatus s }) ∧
    (s.arg1.toNat ≤ 7 → s.arg0.toNat ≤ s.fmt.dlen.toNat →
      (8 * s.arg0.toNat + s.arg1.toNat) % s.fmt.bps.toNat = 0 →
      2 ^ 64 ≤ (8 * s.arg0.toNat + s.arg1.toNat) / s.fmt.bps.toNat / s.fmt.ch.toNat →
      ∃ t, exec .indexOf s = .next t ∧
        t.res1.toNat = (8 * s.arg0.toNat + s.arg1.toNat) / s.fmt.bps.toNat % s.fmt.ch.toNat ∧
        t = { s with res0 := t.res0, res1 := t.res1, freeIndex := t.freeIndex, status := okStatus s })

/-- 40_stream.md R103: while a stream is open the format registers change only by a successful OPEN (or by hardware
reset, 70_reset_and_hazards.md R260). -/
def Obligations.OnlyOpenWritesTheFormat : Prop :=
  ∀ s t : State, step s = .next t → s.status.opened = true → t.fmt ≠ s.fmt →
    PowerOnNext s ∨
    ∃ w, CommandNext s w ∧ decode (BitVec.ofNat 64 w) = .command .openStream ∧ t.status.err = .ok ∧
      t.fmt = { bps := s.arg0, ch := s.arg1, rate := s.arg2, doff := s.arg3, dlen := s.arg4 }

/-! ### Translator -/

/-- 41_translator.md R122: ADDR_OF. -/
def Obligations.AddrOfGivesTheBitAddress : Prop :=
  decode 0x3 = .command .addrOf ∧
  ∀ s : State,
    let f := (s.arg0.toNat * s.fmt.ch.toNat + s.arg1.toNat) * s.fmt.bps.toNat
    (s.status.opened = false → exec .addrOf s = .next (failed .notReady s)) ∧
    (s.status.opened = true → s.fmt.ch.toNat ≤ s.arg1.toNat → exec .addrOf s = .next (failed .outOfRange s)) ∧
    (s.status.opened = true → s.arg1.toNat < s.fmt.ch.toNat → s.fmt.dlen.toNat < f / 8 →
      exec .addrOf s = .next (failed .outOfRange s)) ∧
    (s.status.opened = true → s.arg1.toNat < s.fmt.ch.toNat → f / 8 ≤ s.fmt.dlen.toNat →
      ∃ t, exec .addrOf s = .next t ∧ t.res0.toNat = f / 8 ∧ t.res1.toNat = f % 8 ∧
        t = { s with res0 := t.res0, res1 := t.res1, status := okStatus s })

/-- 41_translator.md R123: INDEX_OF, where the sample index fits RES0. -/
def Obligations.IndexOfGivesSampleAndChannel : Prop :=
  decode 0x4 = .command .indexOf ∧
  ∀ s : State,
    let y := s.arg0.toNat
    let k := s.arg1.toNat
    let f := 8 * y + k
    (s.status.opened = false → exec .indexOf s = .next (failed .notReady s)) ∧
    (s.status.opened = true → 7 < k → exec .indexOf s = .next (failed .outOfRange s)) ∧
    (s.status.opened = true → k ≤ 7 → s.fmt.dlen.toNat < y → exec .indexOf s = .next (failed .outOfRange s)) ∧
    (s.status.opened = true → k ≤ 7 → y ≤ s.fmt.dlen.toNat → f % s.fmt.bps.toNat ≠ 0 →
      exec .indexOf s = .next (failed .outOfRange s)) ∧
    (s.FormatLegal → s.status.opened = true → k ≤ 7 → y ≤ s.fmt.dlen.toNat → f % s.fmt.bps.toNat = 0 →
      f / s.fmt.bps.toNat / s.fmt.ch.toNat < 2 ^ 64 →
      ∃ t, exec .indexOf s = .next t ∧
        t.res0.toNat = f / s.fmt.bps.toNat / s.fmt.ch.toNat ∧
        t.res1.toNat = f / s.fmt.bps.toNat % s.fmt.ch.toNat ∧
        t = { s with res0 := t.res0, res1 := t.res1, status := okStatus s })

/-- 41_translator.md R124: BYTE_RANGE. -/
def Obligations.ByteRangeGivesTheCoveringBytes : Prop :=
  decode 0x5 = .command .byteRange ∧
  ∀ s : State,
    let a := s.arg0.toNat
    let n := s.arg1.toNat
    let c := s.fmt.ch.toNat
    let b := s.fmt.bps.toNat
    let total := 8 * s.fmt.dlen.toNat / (b * c)
    (s.status.opened = false → exec .byteRange s = .next (failed .notReady s)) ∧
    (s.status.opened = true → n = 0 ∨ total < a + n → exec .byteRange s = .next (failed .outOfRange s)) ∧
    (s.status.opened = true → n ≠ 0 → a + n ≤ total →
      ∃ t, exec .byteRange s = .next t ∧
        t.res0.toNat = a * c * b / 8 ∧ t.res1.toNat = ((a + n) * c * b - 1) / 8 ∧
        t.res1.toNat < s.fmt.dlen.toNat ∧
        t = { s with res0 := t.res0, res1 := t.res1, status := okStatus s })

/-- 41_translator.md R125: INDEX_OF of the address a successful ADDR_OF gives is the sample and the channel. -/
def Obligations.AddressRoundTrip : Prop :=
  ∀ s t : State, s.FormatLegal → s.arg1.toNat < s.fmt.ch.toNat → exec .addrOf s = .next t →
    t.status.err = .ok →
    ∃ u, exec .indexOf { t with arg0 := t.res0, arg1 := t.res1 } = .next u ∧ u.status.err = .ok ∧
      u.res0 = s.arg0 ∧ u.res1 = s.arg1

/-- 41_translator.md R126: the bytes a successful BYTE_RANGE gives each hold a bit of the range, and every bit of the
range lies in them. -/
def Obligations.ByteRangeIsMinimal : Prop :=
  ∀ s t : State, s.FormatLegal → exec .byteRange s = .next t → t.status.err = .ok →
    let lo := s.arg0.toNat * s.fmt.ch.toNat * s.fmt.bps.toNat
    let hi := (s.arg0.toNat + s.arg1.toNat) * s.fmt.ch.toNat * s.fmt.bps.toNat
    (∀ j, lo ≤ j → j < hi → t.res0.toNat ≤ j / 8 ∧ j / 8 ≤ t.res1.toNat) ∧
    (∃ j, lo ≤ j ∧ j < hi ∧ j / 8 = t.res0.toNat) ∧
    (∃ j, lo ≤ j ∧ j < hi ∧ j / 8 = t.res1.toNat)

/-! ### Unpacker -/

/-- 42_unpacker.md R143: UNPACK_INIT. -/
def Obligations.UnpackInitSetsTheCursor : Prop :=
  decode 0x8 = .command .unpackInit ∧
  ∀ s : State,
    (7 < s.arg1.toNat ∨ s.params.bufBytes < s.arg0.toNat → exec .unpackInit s = .next (failed .outOfRange s)) ∧
    (s.params.WF → s.arg1.toNat ≤ 7 → s.arg0.toNat ≤ s.params.bufBytes →
      ∃ t, exec .unpackInit s = .next t ∧ t.cursor.toNat = 8 * s.arg0.toNat + s.arg1.toNat ∧
        t = { s with cursor := t.cursor, status := okStatus s })

/-- 42_unpacker.md R144 and R145: NEXT_CODE takes the code of B bits at CURSOR and moves CURSOR past it, or fails. -/
def Obligations.NextCodeTakesTheCodeAtTheCursor : Prop :=
  decode 0x9 = .command .nextCode ∧
  ∀ s : State,
    (s.status.opened = false → exec .nextCode s = .next (failed .notReady s)) ∧
    (s.status.opened = true → 8 * s.bufLen.toNat < s.cursor.toNat + s.fmt.bps.toNat →
      exec .nextCode s = .next (failed .truncated s)) ∧
    (s.Inv → s.status.opened = true → s.cursor.toNat + s.fmt.bps.toNat ≤ 8 * s.bufLen.toNat →
      ∃ t, exec .nextCode s = .next t ∧
        t.res0.toNat = s.codeAt s.cursor.toNat s.fmt.bps.toNat ∧
        t.cursor.toNat = s.cursor.toNat + s.fmt.bps.toNat ∧
        t = { s with res0 := t.res0, cursor := t.cursor, status := okStatus s })

/-- 42_unpacker.md R141 and R142: the bits of Code(j, B), under both bit orders; it is below 2^B and, for B ≤ 5, reads two
bytes at most. -/
def Obligations.CodesAreAssembledInStreamOrder : Prop :=
  ∀ (s : State) (j b : Nat),
    (s.params.bitOrder = .msbFirst → ∀ t, t < b →
      (s.codeAt j b).testBit (b - 1 - t) = (s.bufRead ((j + t) / 8)).getLsbD (7 - (j + t) % 8)) ∧
    (s.params.bitOrder = .lsbFirst → ∀ t, t < b →
      (s.codeAt j b).testBit t = (s.bufRead ((j + t) / 8)).getLsbD ((j + t) % 8)) ∧
    s.codeAt j b < 2 ^ b ∧
    (b ≤ 5 → ∀ u : State, u.params.bitOrder = s.params.bitOrder → u.bufRead (j / 8) = s.bufRead (j / 8) →
      u.bufRead (j / 8 + 1) = s.bufRead (j / 8 + 1) → u.codeAt j b = s.codeAt j b)

/-- NEXT_CODE and DECODE_NEXT read only the bytes below BUF_LEN: another content of BUF that agrees there gives the same
outcome. -/
def Obligations.CodesComeFromValidBytes : Prop :=
  ∀ (s t : State) (m : List Host.Cell),
    (∀ a, a < s.bufLen.toNat → { s with buf := m }.bufRead a = s.bufRead a) →
    (exec .nextCode s = .next t → exec .nextCode { s with buf := m } = .next { t with buf := m }) ∧
    (∀ c, exec (.decodeNext c) s = .next t →
      exec (.decodeNext c) { s with buf := m } = .next { t with buf := m })

/-- One cursor reads all channels' codes in stream order: when CURSOR stands at the first bit of frame f, base bits
having been left out before BUF, the n-th code taken (from 0) is the code of frame f + n div C, channel n mod C. -/
def Obligations.CodesFollowTheChannelInterleave : Prop :=
  ∀ (s u v : State) (base f n : Nat), s.Inv → s.status.opened = true →
    s.cursor.toNat + base = (f * s.fmt.ch.toNat) * s.fmt.bps.toNat → afterCodes n s = some u →
    exec .nextCode u = .next v → v.status.err = .ok →
    v.res0.toNat = s.codeAt
      (((f + n / s.fmt.ch.toNat) * s.fmt.ch.toNat + n % s.fmt.ch.toNat) * s.fmt.bps.toNat - base) s.fmt.bps.toNat

/-! ### Decode commands -/

/-- 43_decoder.md R161: RESET. -/
def Obligations.ResetPutsTheChannelInTheResetState : Prop :=
  (∀ c, c < 2 ^ 16 → decode (BitVec.ofNat 64 (0x6 + c * 2 ^ 16)) = .command (.reset c)) ∧
  ∀ (s : State) (c : Nat),
    (s.status.opened = false → exec (.reset c) s = .next (failed .notReady s)) ∧
    (s.status.opened = true → s.fmt.ch.toNat ≤ c → exec (.reset c) s = .next (failed .outOfRange s)) ∧
    (s.status.opened = true → c < s.fmt.ch.toNat →
      ∃ t, exec (.reset c) s = .next t ∧ t.decoder c = resetValues ∧ t.isReady c = true ∧
        OtherChannelsKept c s t ∧
        t = { s with decoders := t.decoders, ready := t.ready, status := okStatus s })

/-- 43_decoder.md R182: DECODE. -/
def Obligations.DecodeStepsTheChannel : Prop :=
  (∀ c i, c < 2 ^ 16 → i < 2 ^ 5 →
    decode (BitVec.ofNat 64 (0x7 + i * 2 ^ 8 + c * 2 ^ 16)) = .command (.decode c i)) ∧
  ∀ (s : State) (c i : Nat),
    (s.status.opened = false → exec (.decode c i) s = .next (failed .notReady s)) ∧
    (s.status.opened = true → s.fmt.ch.toNat ≤ c → exec (.decode c i) s = .next (failed .outOfRange s)) ∧
    (s.status.opened = true → c < s.fmt.ch.toNat → 2 ^ s.fmt.bps.toNat ≤ i →
      exec (.decode c i) s = .next (failed .illegalCommand s)) ∧
    (s.status.opened = true → c < s.fmt.ch.toNat → i < 2 ^ s.fmt.bps.toNat → s.isReady c = false →
      exec (.decode c i) s = .next (failed .notReady s)) ∧
    (s.status.opened = true → c < s.fmt.ch.toNat → i < 2 ^ s.fmt.bps.toNat → s.isReady c = true →
      ∃ t, exec (.decode c i) s = .next t ∧
        t.decoder c = (decodeStep s.params.g726 s.params.pcmShift (s.decoder c) i s.fmt.bps.toNat).1 ∧
        t.res0 = BitVec.ofInt 64 (decodeStep s.params.g726 s.params.pcmShift (s.decoder c) i s.fmt.bps.toNat).2 ∧
        OtherChannelsKept c s t ∧
        t = { s with decoders := t.decoders, res0 := t.res0, status := okStatus s })

/-- 43_decoder.md R183: DECODE_NEXT. -/
def Obligations.DecodeNextTakesAndDecodes : Prop :=
  (∀ c, c < 2 ^ 16 → decode (BitVec.ofNat 64 (0xA + c * 2 ^ 16)) = .command (.decodeNext c)) ∧
  ∀ (s : State) (c : Nat),
    let b := s.fmt.bps.toNat
    let i := s.codeAt s.cursor.toNat b
    (s.status.opened = false → exec (.decodeNext c) s = .next (failed .notReady s)) ∧
    (s.status.opened = true → s.fmt.ch.toNat ≤ c → exec (.decodeNext c) s = .next (failed .outOfRange s)) ∧
    (s.status.opened = true → c < s.fmt.ch.toNat → s.isReady c = false →
      exec (.decodeNext c) s = .next (failed .notReady s)) ∧
    (s.status.opened = true → c < s.fmt.ch.toNat → s.isReady c = true →
      8 * s.bufLen.toNat < s.cursor.toNat + b → exec (.decodeNext c) s = .next (failed .truncated s)) ∧
    (s.Inv → s.status.opened = true → c < s.fmt.ch.toNat → s.isReady c = true →
      s.cursor.toNat + b ≤ 8 * s.bufLen.toNat →
      ∃ t, exec (.decodeNext c) s = .next t ∧
        t.decoder c = (decodeStep s.params.g726 s.params.pcmShift (s.decoder c) i b).1 ∧
        t.res0 = BitVec.ofInt 64 (decodeStep s.params.g726 s.params.pcmShift (s.decoder c) i b).2 ∧ t.res1.toNat = i ∧
        t.cursor.toNat = s.cursor.toNat + b ∧ OtherChannelsKept c s t ∧
        t = { s with
          decoders := t.decoders, res0 := t.res0, res1 := t.res1, cursor := t.cursor, status := okStatus s })

/-- DECODE_NEXT is NEXT_CODE and then DECODE of the code it gave, fused: where the two succeed one after the other, it
ends in the same state, with the code in RES1. -/
def Obligations.DecodeNextIsNextCodeThenDecode : Prop :=
  ∀ (s t u : State) (c : Nat), s.FormatLegal → exec .nextCode s = .next t → t.status.err = .ok →
    exec (.decode c t.res0.toNat) t = .next u → u.status.err = .ok →
    exec (.decodeNext c) s = .next { u with res1 := t.res0 }

/-- The sample and the next state of a channel depend on nothing but the parameters G726 and PCM_SHIFT, the format, the
channel's own state and READY bit, and the code. -/
def Obligations.DecodeDependsOnItsChannelAlone : Prop :=
  ∀ (s u t : State) (c i : Nat), u.params.g726 = s.params.g726 → u.params.pcmShift = s.params.pcmShift →
    u.status.opened = s.status.opened → u.fmt = s.fmt → u.isReady c = s.isReady c → u.decoder c = s.decoder c → exec (.decode c i) s = .next t →
    ∃ v, exec (.decode c i) u = .next v ∧ v.status.err = t.status.err ∧
      (t.status.err = .ok → v.res0 = t.res0) ∧ v.decoder c = t.decoder c

/-- READY guards decoding: RESET of a channel sets its bit, a successful OPEN clears every bit, a failed OPEN none,
hardware reset clears them, and DECODE and DECODE_NEXT on a channel whose bit is 0 fail with NotReady. -/
def Obligations.ReadyGuardsDecoding : Prop :=
  (∀ (s t : State) (c : Nat), exec (.reset c) s = .next t → t.status.err = .ok → t.isReady c = true) ∧
  (∀ s t : State, exec .openStream s = .next t →
    (t.status.err = .ok → ∀ c, t.isReady c = false) ∧
    (t.status.err ≠ .ok → ∀ c, t.isReady c = s.isReady c)) ∧
  (∀ (p : Params) (c : Nat), (State.resetWith p).isReady c = false) ∧
  (∀ (s : State) (c : Nat), s.powerOn.isReady c = false) ∧
  (∀ (s : State) (c i : Nat), s.status.opened = true → c < s.fmt.ch.toNat → s.isReady c = false →
    (i < 2 ^ s.fmt.bps.toNat → exec (.decode c i) s = .next (failed .notReady s)) ∧
    exec (.decodeNext c) s = .next (failed .notReady s))

/-- A channel's decoder state persists: a step changes it only when it runs RESET, DECODE or DECODE_NEXT on that very
channel, or at power-on. That it survives a successful OPEN, after which no rule reads it before a RESET, is the model's
choice, log entry 6. -/
def Obligations.DecoderStatePersists : Prop :=
  ∀ (s t : State) (c : Nat), step s = .next t → t.decoder c ≠ s.decoder c →
    PowerOnNext s ∨
    ∃ w, CommandNext s w ∧
      (decode (BitVec.ofNat 64 w) = .command (.reset c) ∨
       (∃ i, decode (BitVec.ofNat 64 w) = .command (.decode c i)) ∨
       decode (BitVec.ofNat 64 w) = .command (.decodeNext c))

/-! ### The per-sample transition -/

/-- From a legal state every code of every mode gives a legal state, where the parameter G726 is in range, and every
G726, PCM_SHIFT, state and code give a 16-bit sample (10_state.md R33; the range of YL is 43_decoder.md R173's). -/
def Obligations.DecodeStepKeepsLegalStates : Prop :=
  ∀ (q : G726) (sh : Nat) (d : DecoderState) (i b : Nat),
    (q.InRange → d.Legal → Mode b → i < 2 ^ b → (decodeStep q sh d i b).1.Legal) ∧
    -32768 ≤ (decodeStep q sh d i b).2 ∧ (decodeStep q sh d i b).2 ≤ 32767

/-- 43_decoder.md R170: the sample is SR·2^PCM_SHIFT clipped to 16 bits, and the clip changes no state; PCM_SHIFT is 2 in
the block at hand. -/
def Obligations.SampleIsTheClippedSignal : Prop :=
  Config.params.pcmShift = 2 ∧
  ∀ (q : G726) (sh : Nat) (d : DecoderState) (i b : Nat), q.datapath = .transcription →
    let sr := (signals q.tables d i b).sr
    (32767 < sr * 2 ^ sh → (decodeStep q sh d i b).2 = 32767) ∧
    (sr * 2 ^ sh < -32768 → (decodeStep q sh d i b).2 = -32768) ∧
    (-32768 ≤ sr * 2 ^ sh → sr * 2 ^ sh ≤ 32767 → (decodeStep q sh d i b).2 = sr * 2 ^ sh) ∧
    (decodeStep q sh d i b).1 = nextDecoder q.tables d i b (signals q.tables d i b)

/-- 43_decoder.md R164: FLOAT of a magnitude up to 32767 has its bit length as exponent and its leading six bits as
mantissa, 32 to 63; a zero magnitude is held as {s, 0, 32}. -/
def Obligations.FloatHoldsSixLeadingBits : Prop :=
  ∀ (sgn : Bool) (mag : Nat), mag ≤ 32767 →
    (toFloat sgn mag).s = sgn ∧
    (mag = 0 → (toFloat sgn mag).e.toNat = 0 ∧ (toFloat sgn mag).m.toNat = 32) ∧
    (mag ≠ 0 →
      2 ^ ((toFloat sgn mag).e.toNat - 1) ≤ mag ∧ mag < 2 ^ (toFloat sgn mag).e.toNat ∧
      (toFloat sgn mag).m.toNat = mag * 2 ^ 6 / 2 ^ (toFloat sgn mag).e.toNat ∧
      32 ≤ (toFloat sgn mag).m.toNat ∧ (toFloat sgn mag).m.toNat ≤ 63)

/-- FMULT's product is a 16-bit value below 2^15 in magnitude, with the sign of the exclusive or of its operands' signs,
for every coefficient and every float word. -/
def Obligations.ProductsFitSixteenBits : Prop :=
  ∀ (an : BitVec 16) (f : Float11),
    (fmult an.toInt f).natAbs < 2 ^ 15 ∧
    (xor (decide (an.toInt < 0)) f.s = true → fmult an.toInt f ≤ 0) ∧
    (xor (decide (an.toInt < 0)) f.s = false → 0 ≤ fmult an.toInt f)

/-- With G726 in range, in a legal state 544 ≤ Y ≤ 5120, DQL stays below 1920 (so DEX never exceeds 14), DQMAG has 15 bits, and the −∞ entry
−2048 gives a zero difference. -/
def Obligations.ScaleFactorAndMagnitudeRanges : Prop :=
  ∀ (q : G726) (d : DecoderState) (i b : Nat), q.InRange → d.Legal → Mode b → i < 2 ^ b →
    let g := signals q.tables d i b
    (544 ≤ g.y ∧ g.y ≤ 5120) ∧ logDifference q.tables b i g.y < 1920 ∧ g.dqmag < 2 ^ 15 ∧
    (tblDqln q.tables b i = -2048 → g.dqmag = 0)

/-- A transition (TD = 1 and DQMAG above DQTHR) sets the coefficients to 0, TD to 0 and AP to 256; without one TD tells
whether the new A2 is below −11776. -/
def Obligations.TransitionResetsPredictorAndSpeed : Prop :=
  ∀ (q : G726) (sh : Nat) (d : DecoderState) (i b : Nat), q.datapath = .transcription → d.Legal →
    let n := (decodeStep q sh d i b).1
    let mag := antilog (logDifference q.tables b i (scaleFactor d))
    (d.td = true → transitionThreshold d.yl.toNat < mag →
      n.a1 = 0 ∧ n.a2 = 0 ∧ n.b1 = 0 ∧ n.b2 = 0 ∧ n.b3 = 0 ∧ n.b4 = 0 ∧ n.b5 = 0 ∧ n.b6 = 0 ∧
      n.td = false ∧ n.ap.toNat = 256) ∧
    (d.td = false ∨ mag ≤ transitionThreshold d.yl.toNat → (n.td = true ↔ n.a2.toInt < -11776))

/-- 43_decoder.md R172, R173, R180, R181: the scale factors, the averages of F and the speed control of the next state, in
exact integer arithmetic (`/` rounds down), with nothing lost when they are stored (G726 in range: the default is, TableEntriesAreInRange). -/
def Obligations.ScaleFactorsAveragesAndSpeedAreUpdated : Prop :=
  ∀ (q : G726) (sh : Nat) (d : DecoderState) (i b : Nat), q.InRange → d.Legal → Mode b → i < 2 ^ b →
    let n := (decodeStep q sh d i b).1
    let g := signals q.tables d i b
    let yu : Int := n.yu.toNat
    let yl : Int := d.yl.toNat
    let fi : Int := tblF q.tables b i * 512
    let dms : Int := n.dms.toNat
    let dml : Int := n.dml.toNat
    let ap : Int := d.ap.toNat
    let rises := g.y < 1536 ∨ n.td = true ∨ dml / 8 ≤ ((4 * dms - dml).natAbs : Int)
    yu = max 544 (min 5120 (g.y + (tblW q.tables b i * 32 - g.y) / 32)) ∧
    (n.yl.toNat : Int) = yl + yu + (-yl) / 64 ∧ 34816 ≤ n.yl.toNat ∧ n.yl.toNat ≤ 327680 ∧
    dms = d.dms.toNat + (fi - d.dms.toNat) / 32 ∧
    dml = d.dml.toNat + (4 * fi - d.dml.toNat) / 128 ∧
    (g.tr = true → n.ap.toNat = 256) ∧
    (g.tr = false → rises → (n.ap.toNat : Int) = ap + (512 - ap) / 16) ∧
    (g.tr = false → ¬ rises → (n.ap.toNat : Int) = ap + (-ap) / 16)

/-- 43_decoder.md R175, R176, R177: without a transition the pole and zero coefficients leak and move by the signs, in
exact integer arithmetic (`/` rounds down). -/
def Obligations.CoefficientsLeakAndAdapt : Prop :=
  ∀ (q : G726) (sh : Nat) (d : DecoderState) (i b : Nat), q.datapath = .transcription → d.Legal →
    (signals q.tables d i b).tr = false →
    let n := (decodeStep q sh d i b).1
    let g := signals q.tables d i b
    let a1 := d.a1.toInt
    let a2 := d.a2.toInt
    let pk0 := decide (g.dqsez < 0)
    let fa := max (-256) (min 255 ((if xor pk0 d.pk1 = true then a1 else -a1) / 32))
    let bound := 15360 - n.a2.toInt
    (g.dqsez = 0 → n.a2.toInt = a2 - a2 / 128 ∧
      n.a1.toInt = max (-bound) (min bound (a1 - a1 / 256))) ∧
    (g.dqsez ≠ 0 →
      n.a2.toInt
        = max (-12288) (min 12288 (a2 - a2 / 128 + fa + (if xor pk0 d.pk2 = true then -128 else 128))) ∧
      n.a1.toInt
        = max (-bound) (min bound (a1 - a1 / 256 + (if xor pk0 d.pk1 = true then -192 else 192)))) ∧
    (∀ p ∈ [(d.b1, d.dq1, n.b1), (d.b2, d.dq2, n.b2), (d.b3, d.dq3, n.b3), (d.b4, d.dq4, n.b4), (d.b5, d.dq5, n.b5),
        (d.b6, d.dq6, n.b6)],
      p.2.2.toInt = wrap16 (p.1.toInt - p.1.toInt / (if b = 5 then 512 else 256) +
        (if g.dqmag = 0 then 0 else if xor g.ds p.2.1.s = true then -128 else 128)))

/-- 43_decoder.md R178: the histories move down by one whatever TR is, DQ1 takes FLOAT of the difference, SR1 FLOAT of
the signal (a zero magnitude for SR = −32768), PK1 the new sign. -/
def Obligations.HistoriesMoveDown : Prop :=
  ∀ (q : G726) (sh : Nat) (d : DecoderState) (i b : Nat), q.datapath = .transcription →
    let n := (decodeStep q sh d i b).1
    let g := signals q.tables d i b
    n.dq6 = d.dq5 ∧ n.dq5 = d.dq4 ∧ n.dq4 = d.dq3 ∧ n.dq3 = d.dq2 ∧ n.dq2 = d.dq1 ∧
    n.dq1 = toFloat g.ds g.dqmag ∧ n.sr2 = d.sr1 ∧
    (0 ≤ g.sr → n.sr1 = toFloat false g.sr.toNat) ∧
    (g.sr < 0 → g.sr ≠ -32768 → n.sr1 = toFloat true (-g.sr).toNat) ∧
    (g.sr = -32768 → n.sr1 = toFloat true 0) ∧
    n.pk2 = d.pk1 ∧ (n.pk1 = true ↔ g.dqsez < 0) ∧
    (g.ds = true → g.dqmag = 0 → n.dq1.encode = 0x420)

/-- 44_quantizer_tables.md R205: the ranges of the default tables' entries over all modes and codes, which put
the default of the parameter G726 in range; the block at hand is built with that default. -/
def Obligations.TableEntriesAreInRange : Prop :=
  (G726.transcription.InRange ∧ Config.params.g726 = G726.transcription) ∧
  ∀ b i : Nat, Mode b → i < 2 ^ b →
    let u := Tables.transcription
    (-2048 ≤ tblDqln u b i ∧ tblDqln u b i ≤ 566) ∧ (tblDqln u b i ≠ -2048 → -66 ≤ tblDqln u b i) ∧
    -22 ≤ tblW u b i ∧ tblW u b i ≤ 1122 ∧ 0 ≤ tblF u b i ∧ tblF u b i ≤ 7 ∧
    (-2048 ≤ tblDqln u b i ∧ tblDqln u b i < 2048) ∧ (-2048 ≤ tblW u b i ∧ tblW u b i < 2048) ∧ tblF u b i < 8

/-- With the default G726 and every PCM_SHIFT, in the modes of 3, 4 and 5 bits a stream of code 0 from the RESET state
decodes to zero samples for as long as it lasts, and leaves the RESET state but for AP. -/
def Obligations.IdleCodesDecodeToSilence : Prop :=
  ∀ b sh n : Nat, b = 3 ∨ b = 4 ∨ b = 5 →
    (decodeRun G726.transcription sh b (List.replicate n 0) resetValues).1 = List.replicate n 0 ∧
    ∃ ap, (decodeRun G726.transcription sh b (List.replicate n 0) resetValues).2 = { resetValues with ap := ap }

/-! ### The whole machine -/

/-- Every step keeps the invariant, from every state that has it: STATUS, the format, BUF, CURSOR, READY and every
decoder state (where G726 is in range) stay legal. -/
def Obligations.StepKeepsTheInvariant : Prop :=
  ∀ s t : State, s.Inv → step s = .next t → t.Inv

/-- The invariant holds after hardware reset, for every legal choice of the parameters and for the block at hand. -/
def Obligations.ResetSatisfiesTheInvariant : Prop :=
  (∀ p : Params, p.WF → (State.resetWith p).Inv) ∧ Config.params.WF ∧ State.reset.Inv

/-- 70_reset_and_hazards.md R260: the values after hardware reset, at first and at every later power-on. Of BUF and of
the decoder states, which R260 leaves unspecified, it says nothing. -/
def Obligations.HardwareResetValues : Prop :=
  State.reset = State.resetWith Config.params ∧
  ∀ (p : Params) (s t : State), p.WF → t = State.resetWith p ∨ (s.params = p ∧ t = s.powerOn) →
    (∀ r, r < 16 → (t.readReg r).toNat = 0) ∧
    (t.readReg 16).toNat = p.bufBytes ∧ (t.readReg 17).toNat = p.maxCh ∧
    (∀ r, 18 ≤ r → r < 64 → (t.readReg r).toNat = 0) ∧
    (∀ c, t.isReady c = false) ∧ t.params = p

/-! ### Frames -/

/-- OPEN leaves ARG, RES, CURSOR, BUF_LEN, every byte of BUF and every decoder state; when it fails also the format,
STATUS.OPEN and READY. That the decoder states survive a successful OPEN is the model's choice, log entry 6. -/
def Obligations.FrameOfOpen : Prop :=
  ∀ s t : State, exec .openStream s = .next t →
    OperandsAndBufferKept s t ∧ t.res0 = s.res0 ∧ t.res1 = s.res1 ∧ t.cursor = s.cursor ∧
    (∀ c, t.decoder c = s.decoder c) ∧
    (t.status.err ≠ .ok → t.fmt = s.fmt ∧ t.status.opened = s.status.opened ∧ t.ready = s.ready)

/-- TOTAL, ADDR_OF, INDEX_OF and BYTE_RANGE write RES0 (and all but TOTAL RES1) and STATUS.ERR and STICKY, and nothing
else. -/
def Obligations.FrameOfTranslatorCommands : Prop :=
  ∀ (i : Instr) (s t : State), i = .total ∨ i = .addrOf ∨ i = .indexOf ∨ i = .byteRange → exec i s = .next t →
    OperandsAndBufferKept s t ∧ t.fmt = s.fmt ∧ t.status.opened = s.status.opened ∧ t.cursor = s.cursor ∧
    (∀ c, t.decoder c = s.decoder c ∧ t.isReady c = s.isReady c) ∧ (i = .total → t.res1 = s.res1)

/-- UNPACK_INIT writes CURSOR, NEXT_CODE writes CURSOR and RES0, both write STATUS.ERR and STICKY, and nothing else. -/
def Obligations.FrameOfUnpackerCommands : Prop :=
  ∀ (i : Instr) (s t : State), i = .unpackInit ∨ i = .nextCode → exec i s = .next t →
    OperandsAndBufferKept s t ∧ t.fmt = s.fmt ∧ t.status.opened = s.status.opened ∧ t.res1 = s.res1 ∧
    (∀ c, t.decoder c = s.decoder c ∧ t.isReady c = s.isReady c) ∧ (i = .unpackInit → t.res0 = s.res0)

/-- RESET writes the channel's state and READY bit, DECODE the channel's state and RES0, DECODE_NEXT the channel's state,
RES0, RES1 and CURSOR; all write STATUS.ERR and STICKY, and nothing else: no other channel changes. -/
def Obligations.FrameOfDecoderCommands : Prop :=
  ∀ (c k : Nat) (i : Instr) (s t : State), i = .reset c ∨ i = .decode c k ∨ i = .decodeNext c → exec i s = .next t →
    OperandsAndBufferKept s t ∧ t.fmt = s.fmt ∧ t.status.opened = s.status.opened ∧ OtherChannelsKept c s t ∧
    (i = .reset c → t.res0 = s.res0 ∧ t.res1 = s.res1 ∧ t.cursor = s.cursor) ∧
    (i = .decode c k → t.res1 = s.res1 ∧ t.cursor = s.cursor) ∧
    (i ≠ .reset c → t.isReady c = s.isReady c)

/-! ### The host segment procedure -/

/-- 46_host_segment.md R221: an empty call returns the empty segment at once, with no command and no byte read, for every
startSample. -/
def Obligations.EmptySegmentTouchesNothing : Prop :=
  ∀ (rd : ByteSource) (fresh : Bool) (start : Nat) (s : State),
    segmentDecode rd fresh start 0 s = { result := .segment [] start 0, state := s, reads := [] }

/-- 46_host_segment.md R231: a non-empty successful call makes exactly one read; one that fails before the read (no
stream open, BYTE_RANGE fails, the range is longer than BUF) makes none. -/
def Obligations.SegmentCallsReadExactlyOnce : Prop :=
  ∀ (rd : ByteSource) (fresh : Bool) (start count : Nat) (s : State), count ≠ 0 →
    (∀ out a n, (segmentDecode rd fresh start count s).result = .segment out a n →
      ∃ offset len, (segmentDecode rd fresh start count s).reads = [(offset, len)]) ∧
    (s.status.opened = false → (segmentDecode rd fresh start count s).reads = []) ∧
    (∀ u, runOps (Pseudo.byteRange start count).ops s = .next u →
      u.status.err ≠ .ok ∨ u.params.bufBytes < u.res1.toNat - u.res0.toNat + 1 →
      (segmentDecode rd fresh start count s).reads = [])

/-- A segment call, one that RESETs its channels or one that continues the call before with its channels READY, made
from a legal state of a block whose channels the CH field reaches, returns the whole segment of count·C samples or fails with NotReady, OutOfRange, Capacity or IoError: never Truncated or
IllegalCommand, and no access of it is refused (46_host_segment.md R227, R228, R230). -/
def Obligations.SegmentCallsFailOnlyWithTheFourErrors : Prop :=
  ∀ (rd : ByteSource) (fresh : Bool) (start count : Nat) (s : State), s.Inv → s.fmt.ch.toNat ≤ 2 ^ 16 →
    start < 2 ^ 64 → count < 2 ^ 64 → (fresh = false → ∀ c, c < s.fmt.ch.toNat → s.isReady c = true) →
    (∃ out, (segmentDecode rd fresh start count s).result = .segment out start count ∧
      out.length = count * s.fmt.ch.toNat) ∨
    (∃ e, (segmentDecode rd fresh start count s).result = .failed e ∧
      (e = .notReady ∨ e = .outOfRange ∨ e = .capacity ∨ e = .ioError))
end

