-- ==== Sys2Proof/Laws/Arith.lean ====
section
/-! SUPPORT. The arithmetic the data path shares: shifts, wraps, clamps, and that a value in a field's range is stored
unchanged. -/

namespace Sys2Proof.Machine

theorem asr_eq_div (x : Int) (n : Nat) : asr x n = x / 2 ^ n := rfl

/-- The arithmetic right shift is the floor: the greatest q with q * 2^n ≤ x. -/
theorem asr_floor (x : Int) (n : Nat) : asr x n * 2 ^ n ≤ x ∧ x < (asr x n + 1) * 2 ^ n := by
  have h : (0 : Int) < 2 ^ n := by positivity
  have h1 := Int.emod_add_mul_ediv x (2 ^ n)
  have h2 := Int.emod_nonneg x (ne_of_gt h)
  have h3 := Int.emod_lt_of_pos x h
  unfold asr
  constructor <;> nlinarith

theorem wrap16_range (x : Int) : -32768 ≤ wrap16 x ∧ wrap16 x ≤ 32767 := by
  unfold wrap16; omega

theorem wrap16_of_range {x : Int} (h : -32768 ≤ x ∧ x ≤ 32767) : wrap16 x = x := by
  unfold wrap16; omega

theorem clamp_range {x lo hi : Int} (h : lo ≤ hi) : lo ≤ clamp x lo hi ∧ clamp x lo hi ≤ hi := by
  unfold clamp; omega

theorem clamp_of_range {x lo hi : Int} (h : lo ≤ x ∧ x ≤ hi) : clamp x lo hi = x := by
  unfold clamp; omega

theorem toNat_ofInt_of_range {n : Nat} {x : Int} (h : 0 ≤ x ∧ x < ((2 ^ n : Nat) : Int)) :
    ((BitVec.ofInt n x).toNat : Int) = x := by
  rw [BitVec.toNat_ofInt, Int.emod_eq_of_lt h.1 h.2]
  omega

theorem toInt_ofInt16_of_range {x : Int} (h : -32768 ≤ x ∧ x ≤ 32767) : (BitVec.ofInt 16 x).toInt = x := by
  rw [BitVec.toInt_ofInt, Int.bmod_def]
  omega

theorem word_toNat_of_lt {n : Nat} (h : n < 2 ^ 64) : (word n).toNat = n := by
  unfold word
  rw [BitVec.toNat_ofNat, Nat.mod_eq_of_lt h]

theorem bitlen_zero : bitlen 0 = 0 := rfl

/-- A positive number has `bitlen` bits. -/
theorem bitlen_spec {m : Nat} (h : m ≠ 0) : 2 ^ (bitlen m - 1) ≤ m ∧ m < 2 ^ bitlen m := by
  unfold bitlen
  rw [if_neg h]
  exact ⟨by simpa using Nat.log2_self_le h, Nat.lt_log2_self⟩

theorem bitlen_le {m k : Nat} (h : m < 2 ^ k) : bitlen m ≤ k := by
  by_cases hm : m = 0
  · subst hm; rw [bitlen_zero]; exact Nat.zero_le k
  · have h1 := (bitlen_spec hm).1
    have h2 : 2 ^ (bitlen m - 1) < 2 ^ k := Nat.lt_of_le_of_lt h1 h
    have h3 : bitlen m - 1 < k := (Nat.pow_lt_pow_iff_right (by decide)).mp h2
    omega

theorem streamBit_le_one (j : Nat) (s : State) : s.streamBit j ≤ 1 := by
  unfold State.streamBit
  exact Bool.toNat_le _

/-- The float zero times a zero coefficient is zero. -/
theorem fmult_zero_zero (sgn : Bool) : fmult 0 { Float11.zero with s := sgn } = 0 := by
  cases sgn <;> decide

end Sys2Proof.Machine
end

