-- ==== Sys2Proof/Laws/Sparse.lean ====
section
/-! SUPPORT. Sparse lists: what a key reads after an insertion, and that the keys stay rising. -/

namespace Sys2Proof.Machine

section
variable {α : Type}

@[simp] theorem sparseFind_insert_same (k : Nat) (v : α) (m : List (Nat × α)) :
    sparseFind k (sparseInsert k v m) = some v := by
  induction m with
  | nil => simp [sparseInsert, sparseFind]
  | cons e rest ih =>
    obtain ⟨j, w⟩ := e
    unfold sparseInsert
    split
    · simp [sparseFind]
    · split
      · simp [sparseFind]
      · rename_i h
        simp [sparseFind, Ne.symm h, ih]

theorem sparseFind_insert_other {k a : Nat} (h : a ≠ k) (v : α) (m : List (Nat × α)) :
    sparseFind a (sparseInsert k v m) = sparseFind a m := by
  induction m with
  | nil => simp [sparseInsert, sparseFind, Ne.symm h]
  | cons e rest ih =>
    obtain ⟨j, w⟩ := e
    unfold sparseInsert
    split
    · simp [sparseFind, Ne.symm h]
    · split
      · rename_i hk
        subst hk
        simp [sparseFind, Ne.symm h]
      · simp only [sparseFind, ih]

/-- Every entry after an insertion is the new one or an old one. -/
theorem mem_sparseInsert {k : Nat} {v : α} {m : List (Nat × α)} {e : Nat × α}
    (h : e ∈ sparseInsert k v m) : e = (k, v) ∨ e ∈ m := by
  induction m with
  | nil => simpa [sparseInsert] using h
  | cons d rest ih =>
    obtain ⟨j, w⟩ := d
    unfold sparseInsert at h
    split at h
    · simpa using h
    · split at h
      · rcases List.mem_cons.mp h with h | h
        · exact .inl h
        · exact .inr (List.mem_cons_of_mem _ h)
      · rcases List.mem_cons.mp h with h | h
        · exact .inr (h ▸ List.mem_cons_self)
        · rcases ih h with h | h
          · exact .inl h
          · exact .inr (List.mem_cons_of_mem _ h)

theorem rising_cons (a : Nat) (l : List Nat) :
    rising (a :: l) = true ↔ (∀ b ∈ l, a < b) ∧ rising l = true := by
  simp [rising]

/-- The keys after an insertion are the new key and the old ones. -/
theorem mem_keys_sparseInsert {k : Nat} {v : α} {m : List (Nat × α)} {a : Nat}
    (h : a ∈ (sparseInsert k v m).map Prod.fst) : a = k ∨ a ∈ m.map Prod.fst := by
  obtain ⟨e, he, rfl⟩ := List.mem_map.mp h
  rcases mem_sparseInsert he with rfl | he
  · exact .inl rfl
  · exact .inr (List.mem_map_of_mem he)

/-- Insertion keeps the keys rising. -/
theorem keysRising_insert (k : Nat) (v : α) {m : List (Nat × α)} (h : keysRising m = true) :
    keysRising (sparseInsert k v m) = true := by
  unfold keysRising at *
  induction m with
  | nil => simp [sparseInsert, rising]
  | cons e rest ih =>
    obtain ⟨j, w⟩ := e
    rw [List.map_cons, rising_cons] at h
    obtain ⟨hj, hr⟩ := h
    unfold sparseInsert
    split
    · rename_i hk
      rw [List.map_cons, rising_cons, List.map_cons, rising_cons]
      refine ⟨fun b hb => ?_, hj, hr⟩
      rcases List.mem_cons.mp hb with rfl | hb
      · exact hk
      · exact Nat.lt_trans hk (hj b hb)
    · split
      · rename_i hk
        subst hk
        rw [List.map_cons, rising_cons]
        exact ⟨hj, hr⟩
      · rename_i hk hne
        rw [List.map_cons, rising_cons]
        refine ⟨fun b hb => ?_, ih hr⟩
        rcases mem_keys_sparseInsert hb with rfl | hb
        · show j < b
          omega
        · exact hj b hb

end

theorem mem_setInsert (k a : Nat) (l : List Nat) : a ∈ setInsert k l ↔ a = k ∨ a ∈ l := by
  induction l with
  | nil => simp [setInsert]
  | cons j rest ih =>
    unfold setInsert
    split
    · simp
    · split
      · rename_i hk
        subst hk
        simp
      · simp only [List.mem_cons, ih]
        tauto

/-- Insertion keeps a set rising. -/
theorem rising_setInsert (k : Nat) {l : List Nat} (h : rising l = true) : rising (setInsert k l) = true := by
  induction l with
  | nil => simp [setInsert, rising]
  | cons j rest ih =>
    obtain ⟨hj, hr⟩ := (rising_cons j rest).mp h
    unfold setInsert
    split
    · rename_i hk
      rw [rising_cons]
      refine ⟨fun b hb => ?_, h⟩
      rcases List.mem_cons.mp hb with rfl | hb
      · exact hk
      · exact Nat.lt_trans hk (hj b hb)
    · split
      · exact h
      · rename_i hk hne
        rw [rising_cons]
        refine ⟨fun b hb => ?_, ih hr⟩
        rcases (mem_setInsert k b rest).mp hb with rfl | hb
        · omega
        · exact hj b hb

end Sys2Proof.Machine
end

