-- ==== Sys2Proof/Laws/State.lean ====
section
/-! SUPPORT. What each update of the state does to each of its fields: one lemma per field per update, so that no later
proof unfolds a record update. -/

namespace Sys2Proof.Machine

/-! ### Status.failed -/

@[simp] theorem Status.failed_err (e : ErrCode) (s : Status) : (s.failed e).err = e := rfl
@[simp] theorem Status.failed_opened (e : ErrCode) (s : Status) : (s.failed e).opened = s.opened := rfl
@[simp] theorem Status.failed_sticky (e : ErrCode) (s : Status) : (s.failed e).sticky = true := rfl

/-! ### Status.succeeded -/

@[simp] theorem Status.succeeded_err (s : Status) : s.succeeded.err = .ok := rfl
@[simp] theorem Status.succeeded_opened (s : Status) : s.succeeded.opened = s.opened := rfl
@[simp] theorem Status.succeeded_sticky (s : Status) : s.succeeded.sticky = s.sticky := rfl

/-! ### Status.withOpen -/

@[simp] theorem Status.withOpen_err (s : Status) : s.withOpen.err = s.err := rfl
@[simp] theorem Status.withOpen_opened (s : Status) : s.withOpen.opened = true := rfl
@[simp] theorem Status.withOpen_sticky (s : Status) : s.withOpen.sticky = s.sticky := rfl

/-! ### Status.written -/

@[simp] theorem Status.written_err (v : Word) (s : Status) : (s.written v).err = s.err := rfl
@[simp] theorem Status.written_opened (v : Word) (s : Status) : (s.written v).opened = s.opened := rfl
@[simp] theorem Status.written_sticky (v : Word) (s : Status) : (s.written v).sticky = (s.sticky && !(v.getLsbD 9)) := rfl

/-! ### State.fail -/

@[simp] theorem State.fail_params (e : ErrCode) (s : State) : (s.fail e).params = s.params := rfl
@[simp] theorem State.fail_status (e : ErrCode) (s : State) : (s.fail e).status = s.status.failed e := rfl
@[simp] theorem State.fail_arg0 (e : ErrCode) (s : State) : (s.fail e).arg0 = s.arg0 := rfl
@[simp] theorem State.fail_arg1 (e : ErrCode) (s : State) : (s.fail e).arg1 = s.arg1 := rfl
@[simp] theorem State.fail_arg2 (e : ErrCode) (s : State) : (s.fail e).arg2 = s.arg2 := rfl
@[simp] theorem State.fail_arg3 (e : ErrCode) (s : State) : (s.fail e).arg3 = s.arg3 := rfl
@[simp] theorem State.fail_arg4 (e : ErrCode) (s : State) : (s.fail e).arg4 = s.arg4 := rfl
@[simp] theorem State.fail_res0 (e : ErrCode) (s : State) : (s.fail e).res0 = s.res0 := rfl
@[simp] theorem State.fail_res1 (e : ErrCode) (s : State) : (s.fail e).res1 = s.res1 := rfl
@[simp] theorem State.fail_fmt (e : ErrCode) (s : State) : (s.fail e).fmt = s.fmt := rfl
@[simp] theorem State.fail_cursor (e : ErrCode) (s : State) : (s.fail e).cursor = s.cursor := rfl
@[simp] theorem State.fail_bufLen (e : ErrCode) (s : State) : (s.fail e).bufLen = s.bufLen := rfl
@[simp] theorem State.fail_buf (e : ErrCode) (s : State) : (s.fail e).buf = s.buf := rfl
@[simp] theorem State.fail_decoders (e : ErrCode) (s : State) : (s.fail e).decoders = s.decoders := rfl
@[simp] theorem State.fail_ready (e : ErrCode) (s : State) : (s.fail e).ready = s.ready := rfl
@[simp] theorem State.fail_powerOns (e : ErrCode) (s : State) : (s.fail e).powerOns = s.powerOns := rfl
@[simp] theorem State.fail_freeIndex (e : ErrCode) (s : State) : (s.fail e).freeIndex = s.freeIndex := rfl
@[simp] theorem State.fail_pending (e : ErrCode) (s : State) : (s.fail e).pending = s.pending := rfl
@[simp] theorem State.fail_reply (e : ErrCode) (s : State) : (s.fail e).reply = s.reply := rfl

/-! ### State.succeed -/

@[simp] theorem State.succeed_params (s : State) : s.succeed.params = s.params := rfl
@[simp] theorem State.succeed_status (s : State) : s.succeed.status = s.status.succeeded := rfl
@[simp] theorem State.succeed_arg0 (s : State) : s.succeed.arg0 = s.arg0 := rfl
@[simp] theorem State.succeed_arg1 (s : State) : s.succeed.arg1 = s.arg1 := rfl
@[simp] theorem State.succeed_arg2 (s : State) : s.succeed.arg2 = s.arg2 := rfl
@[simp] theorem State.succeed_arg3 (s : State) : s.succeed.arg3 = s.arg3 := rfl
@[simp] theorem State.succeed_arg4 (s : State) : s.succeed.arg4 = s.arg4 := rfl
@[simp] theorem State.succeed_res0 (s : State) : s.succeed.res0 = s.res0 := rfl
@[simp] theorem State.succeed_res1 (s : State) : s.succeed.res1 = s.res1 := rfl
@[simp] theorem State.succeed_fmt (s : State) : s.succeed.fmt = s.fmt := rfl
@[simp] theorem State.succeed_cursor (s : State) : s.succeed.cursor = s.cursor := rfl
@[simp] theorem State.succeed_bufLen (s : State) : s.succeed.bufLen = s.bufLen := rfl
@[simp] theorem State.succeed_buf (s : State) : s.succeed.buf = s.buf := rfl
@[simp] theorem State.succeed_decoders (s : State) : s.succeed.decoders = s.decoders := rfl
@[simp] theorem State.succeed_ready (s : State) : s.succeed.ready = s.ready := rfl
@[simp] theorem State.succeed_powerOns (s : State) : s.succeed.powerOns = s.powerOns := rfl
@[simp] theorem State.succeed_freeIndex (s : State) : s.succeed.freeIndex = s.freeIndex := rfl
@[simp] theorem State.succeed_pending (s : State) : s.succeed.pending = s.pending := rfl
@[simp] theorem State.succeed_reply (s : State) : s.succeed.reply = s.reply := rfl

/-! ### State.writeStatus -/

@[simp] theorem State.writeStatus_params (v : Word) (s : State) : (s.writeStatus v).params = s.params := rfl
@[simp] theorem State.writeStatus_status (v : Word) (s : State) : (s.writeStatus v).status = s.status.written v := rfl
@[simp] theorem State.writeStatus_arg0 (v : Word) (s : State) : (s.writeStatus v).arg0 = s.arg0 := rfl
@[simp] theorem State.writeStatus_arg1 (v : Word) (s : State) : (s.writeStatus v).arg1 = s.arg1 := rfl
@[simp] theorem State.writeStatus_arg2 (v : Word) (s : State) : (s.writeStatus v).arg2 = s.arg2 := rfl
@[simp] theorem State.writeStatus_arg3 (v : Word) (s : State) : (s.writeStatus v).arg3 = s.arg3 := rfl
@[simp] theorem State.writeStatus_arg4 (v : Word) (s : State) : (s.writeStatus v).arg4 = s.arg4 := rfl
@[simp] theorem State.writeStatus_res0 (v : Word) (s : State) : (s.writeStatus v).res0 = s.res0 := rfl
@[simp] theorem State.writeStatus_res1 (v : Word) (s : State) : (s.writeStatus v).res1 = s.res1 := rfl
@[simp] theorem State.writeStatus_fmt (v : Word) (s : State) : (s.writeStatus v).fmt = s.fmt := rfl
@[simp] theorem State.writeStatus_cursor (v : Word) (s : State) : (s.writeStatus v).cursor = s.cursor := rfl
@[simp] theorem State.writeStatus_bufLen (v : Word) (s : State) : (s.writeStatus v).bufLen = s.bufLen := rfl
@[simp] theorem State.writeStatus_buf (v : Word) (s : State) : (s.writeStatus v).buf = s.buf := rfl
@[simp] theorem State.writeStatus_decoders (v : Word) (s : State) : (s.writeStatus v).decoders = s.decoders := rfl
@[simp] theorem State.writeStatus_ready (v : Word) (s : State) : (s.writeStatus v).ready = s.ready := rfl
@[simp] theorem State.writeStatus_powerOns (v : Word) (s : State) : (s.writeStatus v).powerOns = s.powerOns := rfl
@[simp] theorem State.writeStatus_freeIndex (v : Word) (s : State) : (s.writeStatus v).freeIndex = s.freeIndex := rfl
@[simp] theorem State.writeStatus_pending (v : Word) (s : State) : (s.writeStatus v).pending = s.pending := rfl
@[simp] theorem State.writeStatus_reply (v : Word) (s : State) : (s.writeStatus v).reply = s.reply := rfl

/-! ### State.setRes0 -/

@[simp] theorem State.setRes0_params (v : Word) (s : State) : (s.setRes0 v).params = s.params := rfl
@[simp] theorem State.setRes0_status (v : Word) (s : State) : (s.setRes0 v).status = s.status := rfl
@[simp] theorem State.setRes0_arg0 (v : Word) (s : State) : (s.setRes0 v).arg0 = s.arg0 := rfl
@[simp] theorem State.setRes0_arg1 (v : Word) (s : State) : (s.setRes0 v).arg1 = s.arg1 := rfl
@[simp] theorem State.setRes0_arg2 (v : Word) (s : State) : (s.setRes0 v).arg2 = s.arg2 := rfl
@[simp] theorem State.setRes0_arg3 (v : Word) (s : State) : (s.setRes0 v).arg3 = s.arg3 := rfl
@[simp] theorem State.setRes0_arg4 (v : Word) (s : State) : (s.setRes0 v).arg4 = s.arg4 := rfl
@[simp] theorem State.setRes0_res0 (v : Word) (s : State) : (s.setRes0 v).res0 = v := rfl
@[simp] theorem State.setRes0_res1 (v : Word) (s : State) : (s.setRes0 v).res1 = s.res1 := rfl
@[simp] theorem State.setRes0_fmt (v : Word) (s : State) : (s.setRes0 v).fmt = s.fmt := rfl
@[simp] theorem State.setRes0_cursor (v : Word) (s : State) : (s.setRes0 v).cursor = s.cursor := rfl
@[simp] theorem State.setRes0_bufLen (v : Word) (s : State) : (s.setRes0 v).bufLen = s.bufLen := rfl
@[simp] theorem State.setRes0_buf (v : Word) (s : State) : (s.setRes0 v).buf = s.buf := rfl
@[simp] theorem State.setRes0_decoders (v : Word) (s : State) : (s.setRes0 v).decoders = s.decoders := rfl
@[simp] theorem State.setRes0_ready (v : Word) (s : State) : (s.setRes0 v).ready = s.ready := rfl
@[simp] theorem State.setRes0_powerOns (v : Word) (s : State) : (s.setRes0 v).powerOns = s.powerOns := rfl
@[simp] theorem State.setRes0_freeIndex (v : Word) (s : State) : (s.setRes0 v).freeIndex = s.freeIndex := rfl
@[simp] theorem State.setRes0_pending (v : Word) (s : State) : (s.setRes0 v).pending = s.pending := rfl
@[simp] theorem State.setRes0_reply (v : Word) (s : State) : (s.setRes0 v).reply = s.reply := rfl

/-! ### State.setRes1 -/

@[simp] theorem State.setRes1_params (v : Word) (s : State) : (s.setRes1 v).params = s.params := rfl
@[simp] theorem State.setRes1_status (v : Word) (s : State) : (s.setRes1 v).status = s.status := rfl
@[simp] theorem State.setRes1_arg0 (v : Word) (s : State) : (s.setRes1 v).arg0 = s.arg0 := rfl
@[simp] theorem State.setRes1_arg1 (v : Word) (s : State) : (s.setRes1 v).arg1 = s.arg1 := rfl
@[simp] theorem State.setRes1_arg2 (v : Word) (s : State) : (s.setRes1 v).arg2 = s.arg2 := rfl
@[simp] theorem State.setRes1_arg3 (v : Word) (s : State) : (s.setRes1 v).arg3 = s.arg3 := rfl
@[simp] theorem State.setRes1_arg4 (v : Word) (s : State) : (s.setRes1 v).arg4 = s.arg4 := rfl
@[simp] theorem State.setRes1_res0 (v : Word) (s : State) : (s.setRes1 v).res0 = s.res0 := rfl
@[simp] theorem State.setRes1_res1 (v : Word) (s : State) : (s.setRes1 v).res1 = v := rfl
@[simp] theorem State.setRes1_fmt (v : Word) (s : State) : (s.setRes1 v).fmt = s.fmt := rfl
@[simp] theorem State.setRes1_cursor (v : Word) (s : State) : (s.setRes1 v).cursor = s.cursor := rfl
@[simp] theorem State.setRes1_bufLen (v : Word) (s : State) : (s.setRes1 v).bufLen = s.bufLen := rfl
@[simp] theorem State.setRes1_buf (v : Word) (s : State) : (s.setRes1 v).buf = s.buf := rfl
@[simp] theorem State.setRes1_decoders (v : Word) (s : State) : (s.setRes1 v).decoders = s.decoders := rfl
@[simp] theorem State.setRes1_ready (v : Word) (s : State) : (s.setRes1 v).ready = s.ready := rfl
@[simp] theorem State.setRes1_powerOns (v : Word) (s : State) : (s.setRes1 v).powerOns = s.powerOns := rfl
@[simp] theorem State.setRes1_freeIndex (v : Word) (s : State) : (s.setRes1 v).freeIndex = s.freeIndex := rfl
@[simp] theorem State.setRes1_pending (v : Word) (s : State) : (s.setRes1 v).pending = s.pending := rfl
@[simp] theorem State.setRes1_reply (v : Word) (s : State) : (s.setRes1 v).reply = s.reply := rfl

/-! ### State.setCursor -/

@[simp] theorem State.setCursor_params (j : Nat) (s : State) : (s.setCursor j).params = s.params := rfl
@[simp] theorem State.setCursor_status (j : Nat) (s : State) : (s.setCursor j).status = s.status := rfl
@[simp] theorem State.setCursor_arg0 (j : Nat) (s : State) : (s.setCursor j).arg0 = s.arg0 := rfl
@[simp] theorem State.setCursor_arg1 (j : Nat) (s : State) : (s.setCursor j).arg1 = s.arg1 := rfl
@[simp] theorem State.setCursor_arg2 (j : Nat) (s : State) : (s.setCursor j).arg2 = s.arg2 := rfl
@[simp] theorem State.setCursor_arg3 (j : Nat) (s : State) : (s.setCursor j).arg3 = s.arg3 := rfl
@[simp] theorem State.setCursor_arg4 (j : Nat) (s : State) : (s.setCursor j).arg4 = s.arg4 := rfl
@[simp] theorem State.setCursor_res0 (j : Nat) (s : State) : (s.setCursor j).res0 = s.res0 := rfl
@[simp] theorem State.setCursor_res1 (j : Nat) (s : State) : (s.setCursor j).res1 = s.res1 := rfl
@[simp] theorem State.setCursor_fmt (j : Nat) (s : State) : (s.setCursor j).fmt = s.fmt := rfl
@[simp] theorem State.setCursor_cursor (j : Nat) (s : State) : (s.setCursor j).cursor = word j := rfl
@[simp] theorem State.setCursor_bufLen (j : Nat) (s : State) : (s.setCursor j).bufLen = s.bufLen := rfl
@[simp] theorem State.setCursor_buf (j : Nat) (s : State) : (s.setCursor j).buf = s.buf := rfl
@[simp] theorem State.setCursor_decoders (j : Nat) (s : State) : (s.setCursor j).decoders = s.decoders := rfl
@[simp] theorem State.setCursor_ready (j : Nat) (s : State) : (s.setCursor j).ready = s.ready := rfl
@[simp] theorem State.setCursor_powerOns (j : Nat) (s : State) : (s.setCursor j).powerOns = s.powerOns := rfl
@[simp] theorem State.setCursor_freeIndex (j : Nat) (s : State) : (s.setCursor j).freeIndex = s.freeIndex := rfl
@[simp] theorem State.setCursor_pending (j : Nat) (s : State) : (s.setCursor j).pending = s.pending := rfl
@[simp] theorem State.setCursor_reply (j : Nat) (s : State) : (s.setCursor j).reply = s.reply := rfl

/-! ### State.setBufLen -/

@[simp] theorem State.setBufLen_params (v : Word) (s : State) : (s.setBufLen v).params = s.params := rfl
@[simp] theorem State.setBufLen_status (v : Word) (s : State) : (s.setBufLen v).status = s.status := rfl
@[simp] theorem State.setBufLen_arg0 (v : Word) (s : State) : (s.setBufLen v).arg0 = s.arg0 := rfl
@[simp] theorem State.setBufLen_arg1 (v : Word) (s : State) : (s.setBufLen v).arg1 = s.arg1 := rfl
@[simp] theorem State.setBufLen_arg2 (v : Word) (s : State) : (s.setBufLen v).arg2 = s.arg2 := rfl
@[simp] theorem State.setBufLen_arg3 (v : Word) (s : State) : (s.setBufLen v).arg3 = s.arg3 := rfl
@[simp] theorem State.setBufLen_arg4 (v : Word) (s : State) : (s.setBufLen v).arg4 = s.arg4 := rfl
@[simp] theorem State.setBufLen_res0 (v : Word) (s : State) : (s.setBufLen v).res0 = s.res0 := rfl
@[simp] theorem State.setBufLen_res1 (v : Word) (s : State) : (s.setBufLen v).res1 = s.res1 := rfl
@[simp] theorem State.setBufLen_fmt (v : Word) (s : State) : (s.setBufLen v).fmt = s.fmt := rfl
@[simp] theorem State.setBufLen_cursor (v : Word) (s : State) : (s.setBufLen v).cursor = s.cursor := rfl
@[simp] theorem State.setBufLen_bufLen (v : Word) (s : State) : (s.setBufLen v).bufLen = v := rfl
@[simp] theorem State.setBufLen_buf (v : Word) (s : State) : (s.setBufLen v).buf = s.buf := rfl
@[simp] theorem State.setBufLen_decoders (v : Word) (s : State) : (s.setBufLen v).decoders = s.decoders := rfl
@[simp] theorem State.setBufLen_ready (v : Word) (s : State) : (s.setBufLen v).ready = s.ready := rfl
@[simp] theorem State.setBufLen_powerOns (v : Word) (s : State) : (s.setBufLen v).powerOns = s.powerOns := rfl
@[simp] theorem State.setBufLen_freeIndex (v : Word) (s : State) : (s.setBufLen v).freeIndex = s.freeIndex := rfl
@[simp] theorem State.setBufLen_pending (v : Word) (s : State) : (s.setBufLen v).pending = s.pending := rfl
@[simp] theorem State.setBufLen_reply (v : Word) (s : State) : (s.setBufLen v).reply = s.reply := rfl

/-! ### State.openFormat -/

@[simp] theorem State.openFormat_params (f : Format) (s : State) : (s.openFormat f).params = s.params := rfl
@[simp] theorem State.openFormat_status (f : Format) (s : State) : (s.openFormat f).status = s.status.withOpen := rfl
@[simp] theorem State.openFormat_arg0 (f : Format) (s : State) : (s.openFormat f).arg0 = s.arg0 := rfl
@[simp] theorem State.openFormat_arg1 (f : Format) (s : State) : (s.openFormat f).arg1 = s.arg1 := rfl
@[simp] theorem State.openFormat_arg2 (f : Format) (s : State) : (s.openFormat f).arg2 = s.arg2 := rfl
@[simp] theorem State.openFormat_arg3 (f : Format) (s : State) : (s.openFormat f).arg3 = s.arg3 := rfl
@[simp] theorem State.openFormat_arg4 (f : Format) (s : State) : (s.openFormat f).arg4 = s.arg4 := rfl
@[simp] theorem State.openFormat_res0 (f : Format) (s : State) : (s.openFormat f).res0 = s.res0 := rfl
@[simp] theorem State.openFormat_res1 (f : Format) (s : State) : (s.openFormat f).res1 = s.res1 := rfl
@[simp] theorem State.openFormat_fmt (f : Format) (s : State) : (s.openFormat f).fmt = f := rfl
@[simp] theorem State.openFormat_cursor (f : Format) (s : State) : (s.openFormat f).cursor = s.cursor := rfl
@[simp] theorem State.openFormat_bufLen (f : Format) (s : State) : (s.openFormat f).bufLen = s.bufLen := rfl
@[simp] theorem State.openFormat_buf (f : Format) (s : State) : (s.openFormat f).buf = s.buf := rfl
@[simp] theorem State.openFormat_decoders (f : Format) (s : State) : (s.openFormat f).decoders = s.decoders := rfl
@[simp] theorem State.openFormat_ready (f : Format) (s : State) : (s.openFormat f).ready = [] := rfl
@[simp] theorem State.openFormat_powerOns (f : Format) (s : State) : (s.openFormat f).powerOns = s.powerOns := rfl
@[simp] theorem State.openFormat_freeIndex (f : Format) (s : State) : (s.openFormat f).freeIndex = s.freeIndex := rfl
@[simp] theorem State.openFormat_pending (f : Format) (s : State) : (s.openFormat f).pending = s.pending := rfl
@[simp] theorem State.openFormat_reply (f : Format) (s : State) : (s.openFormat f).reply = s.reply := rfl

/-! ### State.bufWrite -/

@[simp] theorem State.bufWrite_params (i : Nat) (v : Byte) (s : State) : (s.bufWrite i v).params = s.params := rfl
@[simp] theorem State.bufWrite_status (i : Nat) (v : Byte) (s : State) : (s.bufWrite i v).status = s.status := rfl
@[simp] theorem State.bufWrite_arg0 (i : Nat) (v : Byte) (s : State) : (s.bufWrite i v).arg0 = s.arg0 := rfl
@[simp] theorem State.bufWrite_arg1 (i : Nat) (v : Byte) (s : State) : (s.bufWrite i v).arg1 = s.arg1 := rfl
@[simp] theorem State.bufWrite_arg2 (i : Nat) (v : Byte) (s : State) : (s.bufWrite i v).arg2 = s.arg2 := rfl
@[simp] theorem State.bufWrite_arg3 (i : Nat) (v : Byte) (s : State) : (s.bufWrite i v).arg3 = s.arg3 := rfl
@[simp] theorem State.bufWrite_arg4 (i : Nat) (v : Byte) (s : State) : (s.bufWrite i v).arg4 = s.arg4 := rfl
@[simp] theorem State.bufWrite_res0 (i : Nat) (v : Byte) (s : State) : (s.bufWrite i v).res0 = s.res0 := rfl
@[simp] theorem State.bufWrite_res1 (i : Nat) (v : Byte) (s : State) : (s.bufWrite i v).res1 = s.res1 := rfl
@[simp] theorem State.bufWrite_fmt (i : Nat) (v : Byte) (s : State) : (s.bufWrite i v).fmt = s.fmt := rfl
@[simp] theorem State.bufWrite_cursor (i : Nat) (v : Byte) (s : State) : (s.bufWrite i v).cursor = s.cursor := rfl
@[simp] theorem State.bufWrite_bufLen (i : Nat) (v : Byte) (s : State) : (s.bufWrite i v).bufLen = s.bufLen := rfl
@[simp] theorem State.bufWrite_buf (i : Nat) (v : Byte) (s : State) : (s.bufWrite i v).buf = sparseInsert i v s.buf := rfl
@[simp] theorem State.bufWrite_decoders (i : Nat) (v : Byte) (s : State) : (s.bufWrite i v).decoders = s.decoders := rfl
@[simp] theorem State.bufWrite_ready (i : Nat) (v : Byte) (s : State) : (s.bufWrite i v).ready = s.ready := rfl
@[simp] theorem State.bufWrite_powerOns (i : Nat) (v : Byte) (s : State) : (s.bufWrite i v).powerOns = s.powerOns := rfl
@[simp] theorem State.bufWrite_freeIndex (i : Nat) (v : Byte) (s : State) : (s.bufWrite i v).freeIndex = s.freeIndex := rfl
@[simp] theorem State.bufWrite_pending (i : Nat) (v : Byte) (s : State) : (s.bufWrite i v).pending = s.pending := rfl
@[simp] theorem State.bufWrite_reply (i : Nat) (v : Byte) (s : State) : (s.bufWrite i v).reply = s.reply := rfl

/-! ### State.setDecoder -/

@[simp] theorem State.setDecoder_params (c : Nat) (d : DecoderState) (s : State) : (s.setDecoder c d).params = s.params := rfl
@[simp] theorem State.setDecoder_status (c : Nat) (d : DecoderState) (s : State) : (s.setDecoder c d).status = s.status := rfl
@[simp] theorem State.setDecoder_arg0 (c : Nat) (d : DecoderState) (s : State) : (s.setDecoder c d).arg0 = s.arg0 := rfl
@[simp] theorem State.setDecoder_arg1 (c : Nat) (d : DecoderState) (s : State) : (s.setDecoder c d).arg1 = s.arg1 := rfl
@[simp] theorem State.setDecoder_arg2 (c : Nat) (d : DecoderState) (s : State) : (s.setDecoder c d).arg2 = s.arg2 := rfl
@[simp] theorem State.setDecoder_arg3 (c : Nat) (d : DecoderState) (s : State) : (s.setDecoder c d).arg3 = s.arg3 := rfl
@[simp] theorem State.setDecoder_arg4 (c : Nat) (d : DecoderState) (s : State) : (s.setDecoder c d).arg4 = s.arg4 := rfl
@[simp] theorem State.setDecoder_res0 (c : Nat) (d : DecoderState) (s : State) : (s.setDecoder c d).res0 = s.res0 := rfl
@[simp] theorem State.setDecoder_res1 (c : Nat) (d : DecoderState) (s : State) : (s.setDecoder c d).res1 = s.res1 := rfl
@[simp] theorem State.setDecoder_fmt (c : Nat) (d : DecoderState) (s : State) : (s.setDecoder c d).fmt = s.fmt := rfl
@[simp] theorem State.setDecoder_cursor (c : Nat) (d : DecoderState) (s : State) : (s.setDecoder c d).cursor = s.cursor := rfl
@[simp] theorem State.setDecoder_bufLen (c : Nat) (d : DecoderState) (s : State) : (s.setDecoder c d).bufLen = s.bufLen := rfl
@[simp] theorem State.setDecoder_buf (c : Nat) (d : DecoderState) (s : State) : (s.setDecoder c d).buf = s.buf := rfl
@[simp] theorem State.setDecoder_decoders (c : Nat) (d : DecoderState) (s : State) : (s.setDecoder c d).decoders = sparseInsert c d s.decoders := rfl
@[simp] theorem State.setDecoder_ready (c : Nat) (d : DecoderState) (s : State) : (s.setDecoder c d).ready = s.ready := rfl
@[simp] theorem State.setDecoder_powerOns (c : Nat) (d : DecoderState) (s : State) : (s.setDecoder c d).powerOns = s.powerOns := rfl
@[simp] theorem State.setDecoder_freeIndex (c : Nat) (d : DecoderState) (s : State) : (s.setDecoder c d).freeIndex = s.freeIndex := rfl
@[simp] theorem State.setDecoder_pending (c : Nat) (d : DecoderState) (s : State) : (s.setDecoder c d).pending = s.pending := rfl
@[simp] theorem State.setDecoder_reply (c : Nat) (d : DecoderState) (s : State) : (s.setDecoder c d).reply = s.reply := rfl

/-! ### State.markReady -/

@[simp] theorem State.markReady_params (c : Nat) (s : State) : (s.markReady c).params = s.params := rfl
@[simp] theorem State.markReady_status (c : Nat) (s : State) : (s.markReady c).status = s.status := rfl
@[simp] theorem State.markReady_arg0 (c : Nat) (s : State) : (s.markReady c).arg0 = s.arg0 := rfl
@[simp] theorem State.markReady_arg1 (c : Nat) (s : State) : (s.markReady c).arg1 = s.arg1 := rfl
@[simp] theorem State.markReady_arg2 (c : Nat) (s : State) : (s.markReady c).arg2 = s.arg2 := rfl
@[simp] theorem State.markReady_arg3 (c : Nat) (s : State) : (s.markReady c).arg3 = s.arg3 := rfl
@[simp] theorem State.markReady_arg4 (c : Nat) (s : State) : (s.markReady c).arg4 = s.arg4 := rfl
@[simp] theorem State.markReady_res0 (c : Nat) (s : State) : (s.markReady c).res0 = s.res0 := rfl
@[simp] theorem State.markReady_res1 (c : Nat) (s : State) : (s.markReady c).res1 = s.res1 := rfl
@[simp] theorem State.markReady_fmt (c : Nat) (s : State) : (s.markReady c).fmt = s.fmt := rfl
@[simp] theorem State.markReady_cursor (c : Nat) (s : State) : (s.markReady c).cursor = s.cursor := rfl
@[simp] theorem State.markReady_bufLen (c : Nat) (s : State) : (s.markReady c).bufLen = s.bufLen := rfl
@[simp] theorem State.markReady_buf (c : Nat) (s : State) : (s.markReady c).buf = s.buf := rfl
@[simp] theorem State.markReady_decoders (c : Nat) (s : State) : (s.markReady c).decoders = s.decoders := rfl
@[simp] theorem State.markReady_ready (c : Nat) (s : State) : (s.markReady c).ready = setInsert c s.ready := rfl
@[simp] theorem State.markReady_powerOns (c : Nat) (s : State) : (s.markReady c).powerOns = s.powerOns := rfl
@[simp] theorem State.markReady_freeIndex (c : Nat) (s : State) : (s.markReady c).freeIndex = s.freeIndex := rfl
@[simp] theorem State.markReady_pending (c : Nat) (s : State) : (s.markReady c).pending = s.pending := rfl
@[simp] theorem State.markReady_reply (c : Nat) (s : State) : (s.markReady c).reply = s.reply := rfl

/-! ### State.setReply -/

@[simp] theorem State.setReply_params (r : Option Reply) (s : State) : (s.setReply r).params = s.params := rfl
@[simp] theorem State.setReply_status (r : Option Reply) (s : State) : (s.setReply r).status = s.status := rfl
@[simp] theorem State.setReply_arg0 (r : Option Reply) (s : State) : (s.setReply r).arg0 = s.arg0 := rfl
@[simp] theorem State.setReply_arg1 (r : Option Reply) (s : State) : (s.setReply r).arg1 = s.arg1 := rfl
@[simp] theorem State.setReply_arg2 (r : Option Reply) (s : State) : (s.setReply r).arg2 = s.arg2 := rfl
@[simp] theorem State.setReply_arg3 (r : Option Reply) (s : State) : (s.setReply r).arg3 = s.arg3 := rfl
@[simp] theorem State.setReply_arg4 (r : Option Reply) (s : State) : (s.setReply r).arg4 = s.arg4 := rfl
@[simp] theorem State.setReply_res0 (r : Option Reply) (s : State) : (s.setReply r).res0 = s.res0 := rfl
@[simp] theorem State.setReply_res1 (r : Option Reply) (s : State) : (s.setReply r).res1 = s.res1 := rfl
@[simp] theorem State.setReply_fmt (r : Option Reply) (s : State) : (s.setReply r).fmt = s.fmt := rfl
@[simp] theorem State.setReply_cursor (r : Option Reply) (s : State) : (s.setReply r).cursor = s.cursor := rfl
@[simp] theorem State.setReply_bufLen (r : Option Reply) (s : State) : (s.setReply r).bufLen = s.bufLen := rfl
@[simp] theorem State.setReply_buf (r : Option Reply) (s : State) : (s.setReply r).buf = s.buf := rfl
@[simp] theorem State.setReply_decoders (r : Option Reply) (s : State) : (s.setReply r).decoders = s.decoders := rfl
@[simp] theorem State.setReply_ready (r : Option Reply) (s : State) : (s.setReply r).ready = s.ready := rfl
@[simp] theorem State.setReply_powerOns (r : Option Reply) (s : State) : (s.setReply r).powerOns = s.powerOns := rfl
@[simp] theorem State.setReply_freeIndex (r : Option Reply) (s : State) : (s.setReply r).freeIndex = s.freeIndex := rfl
@[simp] theorem State.setReply_pending (r : Option Reply) (s : State) : (s.setReply r).pending = s.pending := rfl
@[simp] theorem State.setReply_reply (r : Option Reply) (s : State) : (s.setReply r).reply = r := rfl

/-! ### State.setPending -/

@[simp] theorem State.setPending_params (p : List Input) (s : State) : (s.setPending p).params = s.params := rfl
@[simp] theorem State.setPending_status (p : List Input) (s : State) : (s.setPending p).status = s.status := rfl
@[simp] theorem State.setPending_arg0 (p : List Input) (s : State) : (s.setPending p).arg0 = s.arg0 := rfl
@[simp] theorem State.setPending_arg1 (p : List Input) (s : State) : (s.setPending p).arg1 = s.arg1 := rfl
@[simp] theorem State.setPending_arg2 (p : List Input) (s : State) : (s.setPending p).arg2 = s.arg2 := rfl
@[simp] theorem State.setPending_arg3 (p : List Input) (s : State) : (s.setPending p).arg3 = s.arg3 := rfl
@[simp] theorem State.setPending_arg4 (p : List Input) (s : State) : (s.setPending p).arg4 = s.arg4 := rfl
@[simp] theorem State.setPending_res0 (p : List Input) (s : State) : (s.setPending p).res0 = s.res0 := rfl
@[simp] theorem State.setPending_res1 (p : List Input) (s : State) : (s.setPending p).res1 = s.res1 := rfl
@[simp] theorem State.setPending_fmt (p : List Input) (s : State) : (s.setPending p).fmt = s.fmt := rfl
@[simp] theorem State.setPending_cursor (p : List Input) (s : State) : (s.setPending p).cursor = s.cursor := rfl
@[simp] theorem State.setPending_bufLen (p : List Input) (s : State) : (s.setPending p).bufLen = s.bufLen := rfl
@[simp] theorem State.setPending_buf (p : List Input) (s : State) : (s.setPending p).buf = s.buf := rfl
@[simp] theorem State.setPending_decoders (p : List Input) (s : State) : (s.setPending p).decoders = s.decoders := rfl
@[simp] theorem State.setPending_ready (p : List Input) (s : State) : (s.setPending p).ready = s.ready := rfl
@[simp] theorem State.setPending_powerOns (p : List Input) (s : State) : (s.setPending p).powerOns = s.powerOns := rfl
@[simp] theorem State.setPending_freeIndex (p : List Input) (s : State) : (s.setPending p).freeIndex = s.freeIndex := rfl
@[simp] theorem State.setPending_pending (p : List Input) (s : State) : (s.setPending p).pending = p := rfl
@[simp] theorem State.setPending_reply (p : List Input) (s : State) : (s.setPending p).reply = s.reply := rfl

/-! ### State.setRes0Wide: RES0 and the free counter, and nothing else -/

@[simp] theorem State.setRes0Wide_params (n : Nat) (s : State) : (s.setRes0Wide n).params = s.params := by
  unfold State.setRes0Wide; split <;> rfl
@[simp] theorem State.setRes0Wide_status (n : Nat) (s : State) : (s.setRes0Wide n).status = s.status := by
  unfold State.setRes0Wide; split <;> rfl
@[simp] theorem State.setRes0Wide_arg0 (n : Nat) (s : State) : (s.setRes0Wide n).arg0 = s.arg0 := by
  unfold State.setRes0Wide; split <;> rfl
@[simp] theorem State.setRes0Wide_arg1 (n : Nat) (s : State) : (s.setRes0Wide n).arg1 = s.arg1 := by
  unfold State.setRes0Wide; split <;> rfl
@[simp] theorem State.setRes0Wide_arg2 (n : Nat) (s : State) : (s.setRes0Wide n).arg2 = s.arg2 := by
  unfold State.setRes0Wide; split <;> rfl
@[simp] theorem State.setRes0Wide_arg3 (n : Nat) (s : State) : (s.setRes0Wide n).arg3 = s.arg3 := by
  unfold State.setRes0Wide; split <;> rfl
@[simp] theorem State.setRes0Wide_arg4 (n : Nat) (s : State) : (s.setRes0Wide n).arg4 = s.arg4 := by
  unfold State.setRes0Wide; split <;> rfl
@[simp] theorem State.setRes0Wide_res1 (n : Nat) (s : State) : (s.setRes0Wide n).res1 = s.res1 := by
  unfold State.setRes0Wide; split <;> rfl
@[simp] theorem State.setRes0Wide_fmt (n : Nat) (s : State) : (s.setRes0Wide n).fmt = s.fmt := by
  unfold State.setRes0Wide; split <;> rfl
@[simp] theorem State.setRes0Wide_cursor (n : Nat) (s : State) : (s.setRes0Wide n).cursor = s.cursor := by
  unfold State.setRes0Wide; split <;> rfl
@[simp] theorem State.setRes0Wide_bufLen (n : Nat) (s : State) : (s.setRes0Wide n).bufLen = s.bufLen := by
  unfold State.setRes0Wide; split <;> rfl
@[simp] theorem State.setRes0Wide_buf (n : Nat) (s : State) : (s.setRes0Wide n).buf = s.buf := by
  unfold State.setRes0Wide; split <;> rfl
@[simp] theorem State.setRes0Wide_decoders (n : Nat) (s : State) : (s.setRes0Wide n).decoders = s.decoders := by
  unfold State.setRes0Wide; split <;> rfl
@[simp] theorem State.setRes0Wide_ready (n : Nat) (s : State) : (s.setRes0Wide n).ready = s.ready := by
  unfold State.setRes0Wide; split <;> rfl
@[simp] theorem State.setRes0Wide_powerOns (n : Nat) (s : State) : (s.setRes0Wide n).powerOns = s.powerOns := by
  unfold State.setRes0Wide; split <;> rfl
@[simp] theorem State.setRes0Wide_pending (n : Nat) (s : State) : (s.setRes0Wide n).pending = s.pending := by
  unfold State.setRes0Wide; split <;> rfl
@[simp] theorem State.setRes0Wide_reply (n : Nat) (s : State) : (s.setRes0Wide n).reply = s.reply := by
  unfold State.setRes0Wide; split <;> rfl

theorem State.setRes0Wide_of_lt {n : Nat} (h : n < 2 ^ 64) (s : State) :
    s.setRes0Wide n = s.setRes0 (word n) := by
  unfold State.setRes0Wide; rw [if_pos h]

theorem State.setRes0Wide_of_le {n : Nat} (h : 2 ^ 64 ≤ n) (s : State) :
    s.setRes0Wide n
      = { s with res0 := Config.freeWord s.freeIndex, freeIndex := s.freeIndex + 1 } := by
  unfold State.setRes0Wide; rw [if_neg (Nat.not_lt.mpr h)]

/-! ### State.powerOn -/

@[simp] theorem State.powerOn_params (s : State) : s.powerOn.params = s.params := rfl
@[simp] theorem State.powerOn_status (s : State) : s.powerOn.status = Status.reset := rfl
@[simp] theorem State.powerOn_arg0 (s : State) : s.powerOn.arg0 = 0 := rfl
@[simp] theorem State.powerOn_arg1 (s : State) : s.powerOn.arg1 = 0 := rfl
@[simp] theorem State.powerOn_arg2 (s : State) : s.powerOn.arg2 = 0 := rfl
@[simp] theorem State.powerOn_arg3 (s : State) : s.powerOn.arg3 = 0 := rfl
@[simp] theorem State.powerOn_arg4 (s : State) : s.powerOn.arg4 = 0 := rfl
@[simp] theorem State.powerOn_res0 (s : State) : s.powerOn.res0 = 0 := rfl
@[simp] theorem State.powerOn_res1 (s : State) : s.powerOn.res1 = 0 := rfl
@[simp] theorem State.powerOn_fmt (s : State) : s.powerOn.fmt = Format.reset := rfl
@[simp] theorem State.powerOn_cursor (s : State) : s.powerOn.cursor = 0 := rfl
@[simp] theorem State.powerOn_bufLen (s : State) : s.powerOn.bufLen = 0 := rfl
@[simp] theorem State.powerOn_buf (s : State) : s.powerOn.buf = [] := rfl
@[simp] theorem State.powerOn_decoders (s : State) : s.powerOn.decoders = [] := rfl
@[simp] theorem State.powerOn_ready (s : State) : s.powerOn.ready = [] := rfl
@[simp] theorem State.powerOn_powerOns (s : State) : s.powerOn.powerOns = s.powerOns + 1 := rfl
@[simp] theorem State.powerOn_freeIndex (s : State) : s.powerOn.freeIndex = s.freeIndex := rfl
@[simp] theorem State.powerOn_pending (s : State) : s.powerOn.pending = s.pending := rfl
@[simp] theorem State.powerOn_reply (s : State) : s.powerOn.reply = none := rfl

end Sys2Proof.Machine
end

