-- ==== Sys2Proof/Laws/Ops.lean ====
section
/-! SUPPORT. The shared operations: what BUF, the decoder states and READY read after a write, and that each keeps its
canonical form. -/

namespace Sys2Proof.Machine

@[simp] theorem failWith_next (e : ErrCode) (s t : State) : failWith e s = .next t ↔ t = s.fail e := by
  unfold failWith
  exact ⟨fun h => by injection h with h; exact h.symm, fun h => by rw [h]⟩

@[simp] theorem finish_next (s t : State) : finish s = .next t ↔ t = s.succeed := by
  unfold finish
  exact ⟨fun h => by injection h with h; exact h.symm, fun h => by rw [h]⟩

/-! ### BUF -/

@[simp] theorem State.bufRead_bufWrite_same (i : Nat) (v : Byte) (s : State) :
    (s.bufWrite i v).bufRead i = v := by
  simp [State.bufRead]

theorem State.bufRead_bufWrite_other {i a : Nat} (h : a ≠ i) (v : Byte) (s : State) :
    (s.bufWrite i v).bufRead a = s.bufRead a := by
  simp [State.bufRead, sparseFind_insert_other h]

/-- What BUF reads depends on the bytes written and the power-on count alone. -/
theorem State.bufRead_congr {s t : State} (hb : s.buf = t.buf) (hp : s.powerOns = t.powerOns) (a : Nat) :
    s.bufRead a = t.bufRead a := by
  simp [State.bufRead, hb, hp]

theorem Memory.wf_nil : Memory.wf [] = true := rfl

/-- Writing a byte keeps BUF's canonical form; no other operation but power-on changes BUF. -/
theorem State.bufWrite_wf (i : Nat) (v : Byte) {s : State} (h : Memory.wf s.buf = true) :
    Memory.wf (s.bufWrite i v).buf = true :=
  keysRising_insert i v h

/-- Power-on leaves BUF in canonical form. -/
theorem State.powerOn_wf (s : State) : Memory.wf s.powerOn.buf = true := rfl

/-- After reset BUF is in canonical form. -/
theorem State.reset_wf : Memory.wf State.reset.buf = true := rfl

/-! ### The decoder states and READY -/

@[simp] theorem State.decoder_setDecoder_same (c : Nat) (d : DecoderState) (s : State) :
    (s.setDecoder c d).decoder c = d := by
  simp [State.decoder]

theorem State.decoder_setDecoder_other {c a : Nat} (h : a ≠ c) (d : DecoderState) (s : State) :
    (s.setDecoder c d).decoder a = s.decoder a := by
  simp [State.decoder, sparseFind_insert_other h]

/-- What a channel's state reads as depends on the listed states and the power-on count alone. -/
theorem State.decoder_congr {s t : State} (hd : s.decoders = t.decoders) (hp : s.powerOns = t.powerOns) (c : Nat) :
    s.decoder c = t.decoder c := by
  simp [State.decoder, hd, hp]

theorem State.isReady_iff (c : Nat) (s : State) : s.isReady c = true ↔ c ∈ s.ready := by
  simp [State.isReady]

@[simp] theorem State.isReady_markReady_same (c : Nat) (s : State) : (s.markReady c).isReady c = true := by
  simp [State.isReady, mem_setInsert]

theorem State.isReady_markReady_other {c a : Nat} (h : a ≠ c) (s : State) :
    (s.markReady c).isReady a = s.isReady a := by
  rw [Bool.eq_iff_iff, State.isReady_iff, State.isReady_iff, State.markReady_ready, mem_setInsert]
  simp [h]

end Sys2Proof.Machine
end

