-- ==== Sys2Proof/Laws/Step.lean ====
section
/-! SUPPORT. The step, the host accesses and the unpacker's TakeCode: once each, everything they can do. -/

namespace Sys2Proof.Machine

theorem step_idle {s : State} (h : s.pending = []) : step s = .next s := by
  unfold step; rw [h]

theorem step_input {s : State} {input : Input} {rest : List Input} (h : s.pending = input :: rest) :
    step s = takeInput input (s.setPending rest) := by
  unfold step; rw [h]

/-- Everything a step that answers a next state can have done. -/
theorem step_cases {s t : State} (h : step s = .next t) :
    (s.pending = [] ∧ t = s) ∨
    (∃ rest, s.pending = .powerOn :: rest ∧ t = (s.setPending rest).powerOn) ∨
    (∃ op rest, s.pending = .host op :: rest ∧ hostAccess op (s.setPending rest) = .next t) := by
  cases hp : s.pending with
  | nil =>
    rw [step_idle hp] at h
    injection h with h
    exact .inl ⟨rfl, h.symm⟩
  | cons input rest =>
    rw [step_input hp] at h
    cases input with
    | powerOn =>
      injection h with h
      exact .inr (.inl ⟨rest, rfl, h.symm⟩)
    | host op => exact .inr (.inr ⟨op, rest, rfl, h⟩)

/-- Everything a host access that answers a next state can have done. -/
theorem hostAccess_cases {op : HostOp} {s t : State} (h : hostAccess op s = .next t) :
    (∃ r v, op = .writeReg r v ∧ r < 64 ∧ v < 2 ^ 64 ∧ writeReg r (word v) (s.setReply none) = .next t) ∨
    (∃ r, op = .readReg r ∧ r < 64 ∧ t = s.setReply (some (.reg (s.readReg r)))) ∨
    (∃ i v, op = .writeBuf i v ∧ i < s.params.bufBytes ∧ v < 2 ^ 8 ∧
      t = (s.bufWrite i (BitVec.ofNat 8 v)).setReply none) ∨
    (∃ i, op = .readBuf i ∧ i < s.params.bufBytes ∧ t = s.setReply (some (.byte (s.bufRead i)))) := by
  cases op with
  | writeReg r v =>
    simp only [hostAccess] at h
    split at h
    · cases h
    · split at h
      · cases h
      · exact .inl ⟨r, v, rfl, by omega, by omega, h⟩
  | readReg r =>
    simp only [hostAccess] at h
    split at h
    · cases h
    · injection h with h
      exact .inr (.inl ⟨r, rfl, by omega, h.symm⟩)
  | writeBuf i v =>
    simp only [hostAccess] at h
    split at h
    · cases h
    · split at h
      · cases h
      · injection h with h
        exact .inr (.inr (.inl ⟨i, v, rfl, by omega, by omega, h.symm⟩))
  | readBuf i =>
    simp only [hostAccess] at h
    split at h
    · cases h
    · injection h with h
      exact .inr (.inr (.inr ⟨i, rfl, by omega, h.symm⟩))

/-- Everything a register write that answers a next state can have done: run a command word, or one of the plain
writes. -/
theorem writeReg_cases {r : Nat} {v : Word} {s t : State} (h : writeReg r v s = .next t) :
    (r = 0 ∧ runWord v s = .next t) ∨
    (r = 1 ∧ t = s.writeStatus v) ∨
    (r = 2 ∧ t = { s with arg0 := v }) ∨
    (r = 3 ∧ t = { s with arg1 := v }) ∨
    (r = 4 ∧ t = { s with arg2 := v }) ∨
    (r = 5 ∧ t = { s with arg3 := v }) ∨
    (r = 6 ∧ t = { s with arg4 := v }) ∨
    (r = 15 ∧ t = s.writeBufLen v) ∨
    t = s := by
  unfold writeReg at h
  split at h <;> first | exact .inl ⟨rfl, h⟩ | (injection h with h; simp [h.symm])

/-- Everything a host write of BUF_LEN can do. -/
theorem State.writeBufLen_cases (v : Word) (s : State) :
    (s.params.bufBytes < v.toNat ∧ s.writeBufLen v = s.fail .capacity) ∨
    (v.toNat ≤ s.params.bufBytes ∧ s.writeBufLen v = (s.setBufLen v).succeed) := by
  unfold State.writeBufLen
  split
  · exact .inl ⟨‹_›, rfl⟩
  · exact .inr ⟨by omega, rfl⟩

theorem takeCode_none_iff (b : Nat) (s : State) :
    s.takeCode b = none ↔ 8 * s.bufLen.toNat < s.cursor.toNat + b := by
  unfold State.takeCode
  dsimp only
  split <;> simp_all

/-- Everything TakeCode can do when it takes a code. -/
theorem takeCode_some_iff (b v : Nat) (s t : State) :
    s.takeCode b = some (v, t) ↔
      s.cursor.toNat + b ≤ 8 * s.bufLen.toNat ∧ v = s.codeAt s.cursor.toNat b ∧
        t = s.setCursor (s.cursor.toNat + b) := by
  unfold State.takeCode
  dsimp only
  split
  · rename_i h
    constructor
    · intro h'; cases h'
    · rintro ⟨h', -⟩; omega
  · rename_i h
    constructor
    · intro h'
      injection h' with h'
      injection h' with hv ht
      exact ⟨by omega, hv.symm, ht.symm⟩
    · rintro ⟨-, rfl, rfl⟩; rfl

/-- Everything a run of host operations that answers a next state can have done. -/
theorem runOps_cons {op : HostOp} {rest : List HostOp} {s t : State} (h : runOps (op :: rest) s = .next t) :
    ∃ u, hostAccess op s = .next u ∧ runOps rest u = .next t := by
  simp only [runOps] at h
  split at h
  · exact ⟨_, ‹_›, h⟩
  · cases h
  · cases h

theorem runOps_append_next {xs ys : List HostOp} {s t : State} (h : runOps xs s = .next t) :
    runOps (xs ++ ys) s = runOps ys t := by
  induction xs generalizing s with
  | nil =>
    injection h with h
    rw [List.nil_append, h]
  | cons op rest ih =>
    obtain ⟨u, hu, hr⟩ := runOps_cons h
    simp only [List.cons_append, runOps, hu]
    exact ih hr

end Sys2Proof.Machine
end

