-- ==== Sys2Proof/Laws/Exec.lean ====
section
/-! SUPPORT. Per command, once, everything it can do: it fails with one of its codes and leaves the rest of the state,
or its checks pass and it makes its writes. -/

namespace Sys2Proof.Machine

/-- The command fails with one of the codes in `es`. -/
def FailsWith (a : Answer) (s : State) (es : List ErrCode) : Prop := ∃ e ∈ es, a = failWith e s

theorem execOpen_cases (s : State) :
    FailsWith (execOpen s) s [.unsupportedMode, .format, .capacity, .truncated] ∨
    (legalWidth s.argN0 = true ∧ s.argN1 ≠ 0 ∧ s.argN2 ≠ 0 ∧ s.argN1 ≤ s.params.maxCh ∧
      (8 * s.argN4) % (s.argN0 * s.argN1) = 0 ∧ execOpen s = finish (s.openFormat s.argFormat)) := by
  unfold execOpen
  split
  · exact .inl ⟨_, by simp, rfl⟩
  · split
    · exact .inl ⟨_, by simp, rfl⟩
    · split
      · exact .inl ⟨_, by simp, rfl⟩
      · split
        · exact .inl ⟨_, by simp, rfl⟩
        · rename_i h1 h2 h3 h4
          exact .inr ⟨by simpa using h1, by tauto, by tauto, by omega, by tauto, rfl⟩

theorem execTotal_cases (s : State) :
    FailsWith (execTotal s) s [.notReady] ∨
    (s.status.opened = true ∧ execTotal s = finish (s.setRes0Wide s.totalFrames)) := by
  unfold execTotal
  split
  · exact .inl ⟨_, by simp, rfl⟩
  · exact .inr ⟨by simp_all, rfl⟩

theorem execAddrOf_cases (s : State) :
    FailsWith (execAddrOf s) s [.notReady, .outOfRange] ∨
    (s.status.opened = true ∧ s.argN1 < s.channels ∧ s.flatIndex s.argN0 s.argN1 / 8 ≤ s.dataLen ∧
      execAddrOf s = finish ((s.setRes0 (word (s.flatIndex s.argN0 s.argN1 / 8))).setRes1
        (word (s.flatIndex s.argN0 s.argN1 % 8)))) := by
  unfold execAddrOf
  split
  · exact .inl ⟨_, by simp, rfl⟩
  · split
    · exact .inl ⟨_, by simp, rfl⟩
    · dsimp only
      split
      · exact .inl ⟨_, by simp, rfl⟩
      · exact .inr ⟨by simp_all, by omega, by omega, rfl⟩

theorem execIndexOf_cases (s : State) :
    FailsWith (execIndexOf s) s [.notReady, .outOfRange] ∨
    (s.status.opened = true ∧ s.argN1 ≤ 7 ∧ s.argN0 ≤ s.dataLen ∧ (8 * s.argN0 + s.argN1) % s.width = 0 ∧
      execIndexOf s = finish ((s.setRes0Wide ((8 * s.argN0 + s.argN1) / s.width / s.channels)).setRes1
        (word ((8 * s.argN0 + s.argN1) / s.width % s.channels)))) := by
  unfold execIndexOf
  split
  · exact .inl ⟨_, by simp, rfl⟩
  · split
    · exact .inl ⟨_, by simp, rfl⟩
    · split
      · exact .inl ⟨_, by simp, rfl⟩
      · dsimp only
        split
        · exact .inl ⟨_, by simp, rfl⟩
        · exact .inr ⟨by simp_all, by omega, by omega, by omega, rfl⟩

theorem execByteRange_cases (s : State) :
    FailsWith (execByteRange s) s [.notReady, .outOfRange] ∨
    (s.status.opened = true ∧ s.argN1 ≠ 0 ∧ s.argN0 + s.argN1 ≤ s.totalFrames ∧
      execByteRange s = finish ((s.setRes0 (word ((s.argN0 * s.channels * s.width) / 8))).setRes1
        (word (((s.argN0 + s.argN1) * s.channels * s.width - 1) / 8)))) := by
  unfold execByteRange
  split
  · exact .inl ⟨_, by simp, rfl⟩
  · split
    · exact .inl ⟨_, by simp, rfl⟩
    · exact .inr ⟨by simp_all, by omega, by omega, rfl⟩

theorem execUnpackInit_cases (s : State) :
    FailsWith (execUnpackInit s) s [.outOfRange] ∨
    (s.argN1 ≤ 7 ∧ s.argN0 ≤ s.params.bufBytes ∧
      execUnpackInit s = finish (s.setCursor (8 * s.argN0 + s.argN1))) := by
  unfold execUnpackInit
  split
  · exact .inl ⟨_, by simp, rfl⟩
  · exact .inr ⟨by omega, by omega, rfl⟩

theorem execNextCode_cases (s : State) :
    FailsWith (execNextCode s) s [.notReady, .truncated] ∨
    (s.status.opened = true ∧ s.cursor.toNat + s.width ≤ 8 * s.bufLen.toNat ∧
      execNextCode s = finish ((s.setCursor (s.cursor.toNat + s.width)).setRes0
        (word (s.codeAt s.cursor.toNat s.width)))) := by
  unfold execNextCode
  split
  · exact .inl ⟨_, by simp, rfl⟩
  · cases h : s.takeCode s.width with
    | none => exact .inl ⟨_, by simp, rfl⟩
    | some r =>
      obtain ⟨v, t⟩ := r
      obtain ⟨hle, rfl, rfl⟩ := (takeCode_some_iff _ _ _ _).mp h
      exact .inr ⟨by simp_all, hle, rfl⟩

theorem execReset_cases (c : Nat) (s : State) :
    FailsWith (execReset c s) s [.notReady, .outOfRange] ∨
    (s.status.opened = true ∧ c < s.channels ∧
      execReset c s = finish ((s.setDecoder c DecoderState.reset).markReady c)) := by
  unfold execReset
  split
  · exact .inl ⟨_, by simp, rfl⟩
  · split
    · exact .inl ⟨_, by simp, rfl⟩
    · exact .inr ⟨by simp_all, by omega, rfl⟩

theorem execDecode_cases (c i : Nat) (s : State) :
    FailsWith (execDecode c i s) s [.notReady, .outOfRange, .illegalCommand] ∨
    (s.status.opened = true ∧ c < s.channels ∧ i < 2 ^ s.width ∧ s.isReady c = true ∧
      execDecode c i s = finish (s.decodeOn c i)) := by
  unfold execDecode
  split
  · exact .inl ⟨_, by simp, rfl⟩
  · split
    · exact .inl ⟨_, by simp, rfl⟩
    · split
      · exact .inl ⟨_, by simp, rfl⟩
      · split
        · exact .inl ⟨_, by simp, rfl⟩
        · exact .inr ⟨by simp_all, by omega, by omega, by simp_all, rfl⟩

theorem execDecodeNext_cases (c : Nat) (s : State) :
    FailsWith (execDecodeNext c s) s [.notReady, .outOfRange, .truncated] ∨
    (s.status.opened = true ∧ c < s.channels ∧ s.isReady c = true ∧
      s.cursor.toNat + s.width ≤ 8 * s.bufLen.toNat ∧
      execDecodeNext c s = finish (((s.setCursor (s.cursor.toNat + s.width)).decodeOn c
        (s.codeAt s.cursor.toNat s.width)).setRes1 (word (s.codeAt s.cursor.toNat s.width)))) := by
  unfold execDecodeNext
  split
  · exact .inl ⟨_, by simp, rfl⟩
  · split
    · exact .inl ⟨_, by simp, rfl⟩
    · split
      · exact .inl ⟨_, by simp, rfl⟩
      · cases h : s.takeCode s.width with
        | none => exact .inl ⟨_, by simp, rfl⟩
        | some r =>
          obtain ⟨v, t⟩ := r
          obtain ⟨hle, rfl, rfl⟩ := (takeCode_some_iff _ _ _ _).mp h
          exact .inr ⟨by simp_all, by omega, by simp_all, hle, rfl⟩

/-- One decoder step writes the channel's state and RES0, and nothing else. -/
theorem State.decodeOn_eq (c i : Nat) (s : State) :
    s.decodeOn c i
      = (s.setDecoder c (decodeStep s.params.g726 s.params.pcmShift (s.decoder c) i s.width).1).setRes0
          (sext64 (decodeStep s.params.g726 s.params.pcmShift (s.decoder c) i s.width).2) := rfl

end Sys2Proof.Machine
end

