-- ==== Sys2Proof/Laws/G726.lean ====
section
/-! SUPPORT. What DecodeStep is for each choice of the parameter G726, and what its range says. -/

namespace Sys2Proof.Machine

/-- With the transcription, DecodeStep is 43_decoder.md R162 to R181 on the parameter's tables. -/
theorem decodeStep_transcription {q : G726} (h : q.datapath = .transcription) (sh : Nat) (d : DecoderState) (i b : Nat) :
    decodeStep q sh d i b =
      (nextDecoder q.tables d i b (signals q.tables d i b), outputSample sh (signals q.tables d i b).sr) := by
  simp only [decodeStep, G726.run, h]

/-- With a supplied datapath, DecodeStep is that datapath and R170's scaling and clip. -/
theorem decodeStep_supplied {q : G726} {n : Nat} (h : q.datapath = .supplied n) (sh : Nat) (d : DecoderState)
    (i b : Nat) :
    decodeStep q sh d i b =
      ((Config.suppliedDatapath n d i b).1, outputSample sh (Config.suppliedDatapath n d i b).2.toInt) := by
  simp only [decodeStep, G726.run, h]

/-- A G726 in range runs the transcription. -/
theorem G726.InRange.datapath {q : G726} (h : q.InRange) : q.datapath = .transcription := by
  simp only [G726.InRange, G726.inRange, Bool.and_eq_true, decide_eq_true_eq] at h
  exact h.1

/-- The entries of a G726 in range, for every mode and code. -/
theorem G726.InRange.entries {q : G726} (h : q.InRange) {b i : Nat} (hb : b = 2 ∨ b = 3 ∨ b = 4 ∨ b = 5)
    (hi : i < 2 ^ b) :
    -2048 ≤ tblDqln q.tables b i ∧ tblDqln q.tables b i ≤ 566 ∧ -22 ≤ tblW q.tables b i ∧
      tblW q.tables b i ≤ 1122 ∧ 0 ≤ tblF q.tables b i ∧ tblF q.tables b i ≤ 7 := by
  simp only [G726.InRange, G726.inRange, Bool.and_eq_true, List.all_eq_true, decide_eq_true_eq] at h
  exact h.2 b (by simpa using hb) i (List.mem_range.mpr hi)

end Sys2Proof.Machine
end

