-- ==== Sys2Proof/Laws/Inversion.lean ====
section
/-! SUPPORT. Inversion: once, everything a command or a step that answers a next state can have done. -/

namespace Sys2Proof.Machine

/-- How any command ends: it fails and changes STATUS alone, or it succeeds, keeps STICKY, and only OPEN touches
STATUS.OPEN and the format. -/
theorem exec_next_status {i : Instr} {s t : State} (h : exec i s = .next t) :
    (∃ e, e ≠ .ok ∧ e ≠ .ioError ∧ t = s.fail e) ∨
    (t.status.err = .ok ∧ t.status.sticky = s.status.sticky ∧
      (t.status.opened = s.status.opened ∨ (i = .openStream ∧ t.status.opened = true)) ∧
      (t.fmt = s.fmt ∨ (i = .openStream ∧ t.fmt = s.argFormat))) := by
  have fin : ∀ {es : List ErrCode} {a : Answer}, FailsWith a s es → (.ok ∉ es) → (.ioError ∉ es) → a = .next t →
      (∃ e, e ≠ .ok ∧ e ≠ .ioError ∧ t = s.fail e) := by
    rintro es a ⟨e, he, rfl⟩ h1 h2 h
    refine ⟨e, fun h' => h1 (h' ▸ he), fun h' => h2 (h' ▸ he), (failWith_next _ _ _).mp h⟩
  cases i <;> simp only [exec] at h
  case openStream =>
    rcases execOpen_cases s with h1 | ⟨_,_,_,_,_,h1⟩
    · exact .inl (fin h1 (by decide) (by decide) h)
    · rw [h1, finish_next] at h; subst h; simp
  case total =>
    rcases execTotal_cases s with h1 | ⟨_,h1⟩
    · exact .inl (fin h1 (by decide) (by decide) h)
    · rw [h1, finish_next] at h; subst h; simp
  case addrOf =>
    rcases execAddrOf_cases s with h1 | ⟨_,_,_,h1⟩
    · exact .inl (fin h1 (by decide) (by decide) h)
    · rw [h1, finish_next] at h; subst h; simp
  case indexOf =>
    rcases execIndexOf_cases s with h1 | ⟨_,_,_,_,h1⟩
    · exact .inl (fin h1 (by decide) (by decide) h)
    · rw [h1, finish_next] at h; subst h; simp
  case byteRange =>
    rcases execByteRange_cases s with h1 | ⟨_,_,_,h1⟩
    · exact .inl (fin h1 (by decide) (by decide) h)
    · rw [h1, finish_next] at h; subst h; simp
  case reset =>
    rcases execReset_cases _ s with h1 | ⟨_,_,h1⟩
    · exact .inl (fin h1 (by decide) (by decide) h)
    · rw [h1, finish_next] at h; subst h; simp
  case decode =>
    rcases execDecode_cases _ _ s with h1 | ⟨_,_,_,_,h1⟩
    · exact .inl (fin h1 (by decide) (by decide) h)
    · rw [h1, finish_next] at h; subst h; simp [State.decodeOn_eq]
  case unpackInit =>
    rcases execUnpackInit_cases s with h1 | ⟨_,_,h1⟩
    · exact .inl (fin h1 (by decide) (by decide) h)
    · rw [h1, finish_next] at h; subst h; simp
  case nextCode =>
    rcases execNextCode_cases s with h1 | ⟨_,_,h1⟩
    · exact .inl (fin h1 (by decide) (by decide) h)
    · rw [h1, finish_next] at h; subst h; simp
  case decodeNext =>
    rcases execDecodeNext_cases _ s with h1 | ⟨_,_,_,_,h1⟩
    · exact .inl (fin h1 (by decide) (by decide) h)
    · rw [h1, finish_next] at h; subst h; simp [State.decodeOn_eq]

/-- s with its next input taken and no reply. -/
abbrev State.afterInput (rest : List Input) (s : State) : State := { s with pending := rest, reply := none }

/-- Everything a step can do: nothing; power-on; a command; an illegal word; a write of STATUS, of BUF_LEN or of another
register; a write of BUF; a read. -/
theorem step_next_cases {s t : State} (h : step s = .next t) :
    (s.pending = [] ∧ t = s) ∨
    (∃ rest, s.pending = .powerOn :: rest ∧ t = (s.setPending rest).powerOn) ∨
    (∃ w rest, w < 2 ^ 64 ∧ s.pending = .host (.writeReg 0 w) :: rest ∧
      ∃ i, decode (BitVec.ofNat 64 w) = .command i ∧ exec i (s.afterInput rest) = .next t) ∨
    (∃ w rest, w < 2 ^ 64 ∧ s.pending = .host (.writeReg 0 w) :: rest ∧
      (∃ y, decode (BitVec.ofNat 64 w) = .illegal y) ∧ t = (s.afterInput rest).fail .illegalCommand) ∨
    (∃ v rest, s.pending = .host (.writeReg 1 v) :: rest ∧ v < 2 ^ 64 ∧ t = (s.afterInput rest).writeStatus (word v)) ∨
    (∃ v rest, v < 2 ^ 64 ∧ s.pending = .host (.writeReg 15 v) :: rest ∧
      t = (s.afterInput rest).writeBufLen (word v)) ∨
    (∃ rest a0 a1 a2 a3 a4,
      t = { s.afterInput rest with arg0 := a0, arg1 := a1, arg2 := a2, arg3 := a3, arg4 := a4 }) ∨
    (∃ rest i v, i < s.params.bufBytes ∧ t = (s.afterInput rest).bufWrite i v) ∨
    (∃ rest r, t = { s with pending := rest, reply := r }) := by
  rcases step_cases h with h | h | ⟨op, rest, hp, h⟩
  · exact .inl h
  · exact .inr (.inl h)
  · right; right
    have g := hostAccess_cases h
    clear h
    rcases g with ⟨r,v,rfl,hr,hv,g⟩ | ⟨r,rfl,hr,g⟩ | ⟨i,v,rfl,hi,hv,g⟩ | ⟨i,rfl,hi,g⟩
    · have k := writeReg_cases g
      clear g
      rcases k with ⟨rfl,k⟩ | ⟨rfl,k⟩ | ⟨rfl,k⟩ | ⟨rfl,k⟩ | ⟨rfl,k⟩ | ⟨rfl,k⟩ | ⟨rfl,k⟩ | ⟨rfl,k⟩ | k
      · cases hd : decode (BitVec.ofNat 64 v) with
        | command i => simp only [runWord, word, hd] at k; exact .inl ⟨v, rest, hv, hp, i, hd, k⟩
        | illegal y => simp only [runWord, word, hd, execIllegal, failWith_next] at k; exact .inr (.inl ⟨v, rest, hv, hp, ⟨y,hd⟩, k⟩)
      · exact .inr (.inr (.inl ⟨v,rest,hp,hv,k⟩))
      iterate 5 exact .inr (.inr (.inr (.inr (.inl ⟨rest,_,_,_,_,_,k⟩))))
      · exact .inr (.inr (.inr (.inl ⟨v,rest,hv,hp,k⟩)))
      · exact .inr (.inr (.inr (.inr (.inl ⟨rest,_,_,_,_,_,k⟩))))
    · exact .inr (.inr (.inr (.inr (.inr (.inr ⟨rest,_,g⟩)))))
    · exact .inr (.inr (.inr (.inr (.inr (.inl ⟨rest,i,_,hi,g⟩)))))
    · exact .inr (.inr (.inr (.inr (.inr (.inr ⟨rest,_,g⟩)))))

/-- A wide result changes RES0 and the counter of free results, and nothing else. -/
theorem State.setRes0Wide_eq (n : Nat) (s : State) :
    ∃ v k, s.setRes0Wide n = { s with res0 := v, freeIndex := k } := by
  unfold State.setRes0Wide
  split
  · exact ⟨_, _, rfl⟩
  · exact ⟨_, _, rfl⟩

/-- Where as many bits as the code needs are valid, TakeCode takes the code at CURSOR. -/
theorem takeCode_of_le {b : Nat} {s : State} (h : s.cursor.toNat + b ≤ 8 * s.bufLen.toNat) :
    s.takeCode b = some (s.codeAt s.cursor.toNat b, s.setCursor (s.cursor.toNat + b)) :=
  (takeCode_some_iff _ _ _ _).mpr ⟨h, rfl, rfl⟩

/-- What a listed key reads is in the list. -/
theorem mem_of_sparseFind {α : Type} {k : Nat} {m : List (Nat × α)} {v : α} (h : sparseFind k m = some v) :
    (k, v) ∈ m := by
  induction m with
  | nil => simp [sparseFind] at h
  | cons e r ih =>
    obtain ⟨j, w⟩ := e
    unfold sparseFind at h
    split at h
    · rename_i hj
      subst hj
      injection h with h
      subst h
      exact List.mem_cons_self
    · exact List.mem_cons_of_mem _ (ih h)

end Sys2Proof.Machine
end

