-- ==== Sys2Proof/Laws/PerInstr.lean ====
section
/-! SUPPORT. Per command, as syntax: the fields of its encoded word. -/

namespace Sys2Proof.Laws

theorem word_fields {op code ch : Nat} (ho : op < 2 ^ 4) (hcode : code < 2 ^ 5) (hch : ch < 2 ^ 16) :
    let w := BitVec.ofNat 64 (op + code * 2 ^ 8 + ch * 2 ^ 16)
    field w 3 0 = op ∧ field w 7 4 = 0 ∧ field w 12 8 = code ∧ field w 15 13 = 0 ∧ field w 31 16 = ch ∧
      field w 63 32 = 0 := by
  simp only [field, BitVec.toNat_ofNat, Nat.shiftRight_eq_div_pow]
  omega

/-- The word of a well-formed command holds its opcode, code and channel, and zeros elsewhere (30_encoding.md R80). -/
def EncodedFields.Statement (i : Instr) : Prop :=
  i.WellFormed →
    field (encode i) 3 0 = opcode i ∧ field (encode i) 7 4 = 0 ∧ field (encode i) 12 8 = codeField i ∧
    field (encode i) 15 13 = 0 ∧ field (encode i) 31 16 = chField i ∧ field (encode i) 63 32 = 0

theorem EncodedFields.openStream : EncodedFields.Statement .openStream := fun _ => by decide

theorem EncodedFields.total : EncodedFields.Statement .total := fun _ => by decide

theorem EncodedFields.addrOf : EncodedFields.Statement .addrOf := fun _ => by decide

theorem EncodedFields.indexOf : EncodedFields.Statement .indexOf := fun _ => by decide

theorem EncodedFields.byteRange : EncodedFields.Statement .byteRange := fun _ => by decide

theorem EncodedFields.reset (ch : Nat) : EncodedFields.Statement (.reset ch) :=
  fun h => word_fields (op := 0x6) (code := 0) (ch := ch) (by decide) (by decide) h

theorem EncodedFields.decode (ch code : Nat) : EncodedFields.Statement (.decode ch code) :=
  fun h => word_fields (op := 0x7) (code := code) (ch := ch) (by decide) h.2 h.1

theorem EncodedFields.unpackInit : EncodedFields.Statement .unpackInit := fun _ => by decide

theorem EncodedFields.nextCode : EncodedFields.Statement .nextCode := fun _ => by decide

theorem EncodedFields.decodeNext (ch : Nat) : EncodedFields.Statement (.decodeNext ch) :=
  fun h => word_fields (op := 0xA) (code := 0) (ch := ch) (by decide) (by decide) h

end Sys2Proof.Laws
end

