-- ==== Sys2Proof/Laws/Segment.lean ====
section
/-! SUPPORT. The continuation mode of segment calls (46_host_segment.md R229): when a call skips its RESETs, and what
ends a continuation. -/

namespace Sys2Proof.Machine

@[simp] theorem SegmentHost.interrupted_continuation (h : SegmentHost) :
    h.interrupted.continuation = h.continuation := rfl
@[simp] theorem SegmentHost.interrupted_previousEnd (h : SegmentHost) : h.interrupted.previousEnd = none := rfl
@[simp] theorem SegmentSession.setMode_block (on : Bool) (v : SegmentSession) : (v.setMode on).block = v.block := rfl
@[simp] theorem SegmentSession.setMode_previousEnd (on : Bool) (v : SegmentSession) :
    (v.setMode on).host.previousEnd = v.host.previousEnd := rfl

/-- A call continues the one before exactly when the mode is on and it starts where that one ended. -/
theorem SegmentHost.continues_iff (h : SegmentHost) (start : Nat) :
    h.continues start = true ↔ h.continuation = true ∧ h.previousEnd = some start := by
  simp [SegmentHost.continues]

@[simp] theorem SegmentHost.interrupted_continues (h : SegmentHost) (start : Nat) :
    h.interrupted.continues start = false := by
  simp [SegmentHost.continues]

/-- Everything an input between two calls does to the session: the block takes it, and the host notes whether it ends
the continuation. -/
theorem SegmentSession.input_next {x : Input} {v u : SegmentSession} (h : v.input x = .next u) :
    takeInput x v.block = .next u.block ∧
      u.host = if endsContinuation x u.block then v.host.interrupted else v.host := by
  unfold SegmentSession.input at h
  split at h
  · rename_i t ht
    cases h
    exact ⟨ht, rfl⟩
  · cases h
  · cases h

theorem endsContinuation_powerOn (t : State) : endsContinuation .powerOn t = true := rfl

theorem endsContinuation_open {w : Nat} (hw : decode (word w) = .command .openStream) (t : State) :
    endsContinuation (.host (.writeReg 0 w)) t = true := by
  simp [endsContinuation, RegName.index, hw]

theorem endsContinuation_reset {w c : Nat} (hw : decode (word w) = .command (.reset c)) (t : State) :
    endsContinuation (.host (.writeReg 0 w)) t = (t.status.err == .ok) := by
  simp [endsContinuation, RegName.index, hw]

/-- After an input that ends the continuation no call continues. -/
theorem SegmentSession.input_ends {x : Input} {v u : SegmentSession} (h : v.input x = .next u)
    (hx : endsContinuation x u.block = true) (start : Nat) : u.host.continues start = false := by
  rw [(SegmentSession.input_next h).2, if_pos hx]
  exact SegmentHost.interrupted_continues _ _

/-- A call that does not continue the one before RESETs its channels. -/
theorem SegmentSession.call_fresh {v : SegmentSession} {start : Nat} (h : v.host.continues start = false)
    (rd : ByteSource) (count : Nat) : (v.call rd start count).2 = segmentDecode rd true start count v.block := by
  unfold SegmentSession.call readSamples
  rw [h]
  dsimp only
  split <;> rfl

/-- With the mode on, a call that starts where the previous one ended skips its RESETs. -/
theorem SegmentSession.call_continues {v : SegmentSession} {start : Nat} (h : v.host.continues start = true)
    (rd : ByteSource) (count : Nat) : (v.call rd start count).2 = segmentDecode rd false start count v.block := by
  unfold SegmentSession.call readSamples
  rw [h]
  dsimp only
  split <;> rfl

/-- After an OPEN, a command that RESETs a channel, or power-on, the next call RESETs its channels. -/
theorem SegmentSession.call_after_end {x : Input} {v u : SegmentSession} (h : v.input x = .next u)
    (hx : endsContinuation x u.block = true) (rd : ByteSource) (start count : Nat) :
    (u.call rd start count).2 = segmentDecode rd true start count u.block :=
  SegmentSession.call_fresh (SegmentSession.input_ends h hx start) rd count

end Sys2Proof.Machine
end

