-- ==== Sys2Proof/Tests/Slice0.lean ====
section
/-! SUPPORT. Tests: the ill-formed commands, the words of every command, small steps with the spec's worked examples, and
for every statement with hypotheses a state that meets them. Expected values are the spec's (95_test_vectors.md and the
examples of the rules named), never the model's own. -/

open Sys2Proof Sys2Proof.Machine Sys2Proof.Claims

namespace Sys2Proof.Tests

/-- A block of 8 channels and 64 bytes (the sizes of the spec's examples) after reset. -/
def block (order : BitOrder) : State := State.resetWith { maxCh := 8, bufBytes := 64, bitOrder := order }

/-- s with an open stream of b-bit codes, c channels and l data bytes. -/
def opened (b c l : Word) (s : State) : State :=
  { s with fmt := { bps := b, ch := c, rate := 8000, doff := 0, dlen := l }
           status := { err := .ok, opened := true, sticky := false } }

/-- s with ARG0 and ARG1. -/
def args (a0 a1 : Word) (s : State) : State := { s with arg0 := a0, arg1 := a1 }

/-- s with OPEN's operands. -/
def openArgs (b c r o l : Word) (s : State) : State :=
  { s with arg0 := b, arg1 := c, arg2 := r, arg3 := o, arg4 := l }

/-- s with bytes in BUF from index 0, all valid. -/
def filled (bytes : List (BitVec 8)) (s : State) : State :=
  { s with buf := (List.range bytes.length).zip bytes, bufLen := BitVec.ofNat 64 bytes.length }

/-- s with channel c just RESET. -/
def resetCh (c : Nat) (s : State) : State :=
  { s with decoders := [(c, DecoderState.reset)], ready := [c] }

/-- s with one input waiting. -/
def waiting (x : Input) (s : State) : State := { s with pending := [x] }

/-- The state an answer gives, if it is a next state. -/
def nextOf (a : Answer) : Option State :=
  match a with
  | .next t => some t
  | .fault _ => none
  | .refused _ => none

/-- The error code, RES0 and RES1 after a command. -/
def results (i : Instr) (s : State) : Option (ErrCode × Nat × Nat) :=
  (nextOf (exec i s)).map fun t => (t.status.err, t.res0.toNat, t.res1.toNat)

/-! ### Ill-formed commands are refused by WellFormed -/

theorem test_illformed_reset_ch : ¬ (Instr.reset 65536).WellFormed := by decide
theorem test_illformed_decode_ch : ¬ (Instr.decode 65536 0).WellFormed := by decide
theorem test_illformed_decode_code : ¬ (Instr.decode 0 32).WellFormed := by decide
theorem test_illformed_decode_next_ch : ¬ (Instr.decodeNext 65536).WellFormed := by decide
theorem test_wellformed_extremes :
    (Instr.reset 65535).WellFormed ∧ (Instr.decode 65535 31).WellFormed ∧ (Instr.decodeNext 65535).WellFormed := by decide

/-! ### Words written out bit by bit (30_encoding.md R80, R81, R87): Z2 ++ CH ++ Z1 ++ CODE ++ Z0 ++ OP -/

theorem test_word_open : decode (0#32 ++ 0#16 ++ 0#3 ++ 0#5 ++ 0#4 ++ 0b0001#4) = .command .openStream := by decide
theorem test_word_total : decode (0#32 ++ 0#16 ++ 0#3 ++ 0#5 ++ 0#4 ++ 0b0010#4) = .command .total := by decide
theorem test_word_addr_of : decode (0#32 ++ 0#16 ++ 0#3 ++ 0#5 ++ 0#4 ++ 0b0011#4) = .command .addrOf := by decide
theorem test_word_index_of : decode (0#32 ++ 0#16 ++ 0#3 ++ 0#5 ++ 0#4 ++ 0b0100#4) = .command .indexOf := by decide
theorem test_word_byte_range : decode (0#32 ++ 0#16 ++ 0#3 ++ 0#5 ++ 0#4 ++ 0b0101#4) = .command .byteRange := by decide
theorem test_word_reset :
    decode (0#32 ++ 0b1000000000000001#16 ++ 0#3 ++ 0#5 ++ 0#4 ++ 0b0110#4) = .command (.reset 32769) := by decide
theorem test_word_decode :
    decode (0#32 ++ 0b0000000000001010#16 ++ 0#3 ++ 0b10011#5 ++ 0#4 ++ 0b0111#4) = .command (.decode 10 19) := by decide
theorem test_word_unpack_init : decode (0#32 ++ 0#16 ++ 0#3 ++ 0#5 ++ 0#4 ++ 0b1000#4) = .command .unpackInit := by decide
theorem test_word_next_code : decode (0#32 ++ 0#16 ++ 0#3 ++ 0#5 ++ 0#4 ++ 0b1001#4) = .command .nextCode := by decide
theorem test_word_decode_next :
    decode (0#32 ++ 0b0000000000000010#16 ++ 0#3 ++ 0#5 ++ 0#4 ++ 0b1010#4) = .command (.decodeNext 2) := by decide
/-- The three example words of 30_encoding.md R87. -/
theorem test_words_of_the_spec :
    decode 0x0000000000010006 = .command (.reset 1) ∧ decode 0x0000000000000707 = .command (.decode 0 7) ∧
    decode 0x000000000002000A = .command (.decodeNext 2) := by decide
/-- One word for each way a word is illegal (30_encoding.md R82, R83). -/
theorem test_words_illegal :
    decode 0x0 = .illegal .reservedOp ∧ decode 0xB = .illegal .reservedOp ∧ decode 0xF = .illegal .reservedOp ∧
    decode 0x17 = .illegal .reservedField ∧ decode 0x2007 = .illegal .reservedField ∧
    decode 0x100000006 = .illegal .reservedField ∧ decode 0x106 = .illegal .codeField ∧
    decode 0x10008 = .illegal .chField := by decide
/-- The pseudo-instructions of R87 write the words that `encode` gives. -/
theorem test_pseudo_words :
    (Pseudo.reset 3).ops = [.writeReg 0 (encode (.reset 3)).toNat] ∧
    (Pseudo.decode 2 7).ops = [.writeReg 0 (encode (.decode 2 7)).toNat] ∧
    (Pseudo.decodeNext 5).ops = [.writeReg 0 (encode (.decodeNext 5)).toNat] := by decide

/-! ### The host's questions: the table words run as the first command after reset -/

theorem test_table_words :
    ([0x1, 0x2, 0x3, 0x4, 0x5, 0x6, 0x7, 0x8, 0x9, 0xA].map (decodeTableWord 64))
      = [some .openStream, some .total, some .addrOf, some .indexOf, some .byteRange, some (.reset 0),
         some (.decode 0 0), some .unpackInit, some .nextCode, some (.decodeNext 0)] := by decide
theorem test_first_after_reset :
    [0x1, 0x2, 0x3, 0x4, 0x5, 0x6, 0x7, 0x8, 0x9, 0xA].map
        (fun w => (nextOf (step (State.reset.withFetchWord 64 w))).map (fun t => (t.status.err, t.pending)))
      = [some (.unsupportedMode, []), some (.notReady, []), some (.notReady, []), some (.notReady, []),
         some (.notReady, []), some (.notReady, []), some (.notReady, []), some (.ok, []), some (.notReady, []),
         some (.notReady, [])] := by decide

/-! ### One step per command, with the examples of the rules -/

/-- 40_stream.md R101: OPEN 3, 2, 8000, 0, 12 succeeds. -/
theorem test_open : (nextOf (exec .openStream (openArgs 3 2 8000 0 12 (block .msbFirst)))).map
    (fun t => (t.status.err, t.status.opened, t.fmt.ch, t.fmt.dlen)) = some (.ok, true, 2, 12) := by decide
/-- 40_stream.md R101: OPEN 3, 1, 8000, 0, 10 fails with Truncated. -/
theorem test_open_truncated : (nextOf (exec .openStream (openArgs 3 1 8000 0 10 (block .msbFirst)))).map
    (fun t => (t.status.err, t.status.opened)) = some (.truncated, false) := by decide
/-- 40_stream.md R102. -/
theorem test_total : results .total (opened 4 1 100 (block .msbFirst)) = some (.ok, 200, 0) := by decide
theorem test_total_two_channels : results .total (opened 3 2 12 (block .msbFirst)) = some (.ok, 16, 0) := by decide
/-- 41_translator.md R122. -/
theorem test_addr_of : results .addrOf (args 5 1 (opened 3 2 12 (block .msbFirst))) = some (.ok, 4, 1) := by decide
theorem test_addr_of_beyond :
    results .addrOf (args 17 1 (opened 3 2 12 (block .msbFirst))) = some (.outOfRange, 0, 0) := by decide
/-- 41_translator.md R123. -/
theorem test_index_of : results .indexOf (args 4 1 (opened 3 2 12 (block .msbFirst))) = some (.ok, 5, 1) := by decide
theorem test_index_of_inside :
    results .indexOf (args 4 2 (opened 3 2 12 (block .msbFirst))) = some (.outOfRange, 0, 0) := by decide
/-- 41_translator.md R124. -/
theorem test_byte_range : results .byteRange (args 5 3 (opened 3 2 12 (block .msbFirst))) = some (.ok, 3, 5) := by decide
theorem test_byte_range_beyond :
    results .byteRange (args 15 2 (opened 3 2 12 (block .msbFirst))) = some (.outOfRange, 0, 0) := by decide
/-- 42_unpacker.md R143: UNPACK_INIT 0, 4 sets CURSOR = 4, with no open stream. -/
theorem test_unpack_init : (nextOf (exec .unpackInit (args 0 4 (block .msbFirst)))).map
    (fun t => (t.status.err, t.cursor)) = some (.ok, 4) := by decide
theorem test_unpack_init_beyond : (nextOf (exec .unpackInit (args 65 0 (block .msbFirst)))).map
    (fun t => (t.status.err, t.cursor)) = some (.outOfRange, 0) := by decide
/-- 42_unpacker.md R145: the sixth code of 0xB4 0x6D 0x1F (B = 3), which straddles two bytes, under both orders. -/
theorem test_next_code : (nextOf (exec .nextCode
      { filled [0xB4, 0x6D, 0x1F] (opened 3 1 3 (block .msbFirst)) with cursor := 15 })).map
    (fun t => (t.status.err, t.res0, t.cursor)) = some (.ok, 4, 18) := by decide
theorem test_next_code_lsb : (nextOf (exec .nextCode
      { filled [0xB4, 0x6D, 0x1F] (opened 3 1 3 (block .lsbFirst)) with cursor := 6 })).map
    (fun t => (t.status.err, t.res0, t.cursor)) = some (.ok, 6, 9) := by decide
/-- 43_decoder.md R161: RESET 0, and RESET 1 on a stream of one channel. -/
theorem test_reset : (nextOf (exec (.reset 0) (opened 4 1 100 (block .msbFirst)))).map
    (fun t => ((t.decoder 0).yu.toNat, (t.decoder 0).yl.toNat, (t.decoder 0).sr1.encode, t.isReady 0))
      = some (544, 34816, 0x020, true) := by decide
theorem test_reset_beyond : (nextOf (exec (.reset 1) (opened 4 1 100 (block .msbFirst)))).map
    (fun t => (t.status.err, t.isReady 1)) = some (.outOfRange, false) := by decide
/-- 43_decoder.md R182: DECODE 0, 7 with B = 4. -/
theorem test_decode : (nextOf (exec (.decode 0 7) (resetCh 0 (opened 4 1 100 (block .msbFirst))))).map
    (fun t => (t.res0, (t.decoder 0).yu.toNat, (t.decoder 0).yl.toNat, (t.decoder 0).a1.toInt, (t.decoder 0).dq1.encode))
      = some (88, 1649, 35921, 192, 0x16C) := by decide
/-- 95_test_vectors.md V-D2: the code 8 of mode B = 4 is the negative of code 7; RES0 is sign-extended. -/
theorem test_decode_negative : (nextOf (exec (.decode 0 8) (resetCh 0 (opened 4 1 100 (block .msbFirst))))).map
    (fun t => (t.res0.toInt, (t.decoder 0).a1.toInt, (t.decoder 0).pk1, (t.decoder 0).dq1.encode))
      = some (-88, -192, true, 1388) := by decide
/-- 43_decoder.md R183: DECODE_NEXT 0 on 0x77 (B = 4). -/
theorem test_decode_next : (nextOf (exec (.decodeNext 0)
      (resetCh 0 (filled [0x77, 0x77] (opened 4 1 100 (block .msbFirst)))))).map
    (fun t => (t.status.err, t.res0, t.res1, t.cursor)) = some (.ok, 88, 7, 4) := by decide
theorem test_decode_next_truncated : (nextOf (exec (.decodeNext 0)
      { resetCh 0 (filled [0x77, 0x77] (opened 4 1 100 (block .msbFirst))) with cursor := 16 })).map
    (fun t => (t.status.err, t.cursor)) = some (.truncated, 16) := by decide

/-- 43_decoder.md R164: the examples of FLOAT. -/
theorem test_float : [toFloat false 0, toFloat true 0, toFloat false 1, toFloat false 100, toFloat false 32767].map
    Float11.encode = [0x020, 0x420, 0x060, 0x1F2, 0x3FF] := by decide
/-- 43_decoder.md R165: the examples of FMULT. -/
theorem test_fmult :
    fmult 0 ⟨false, 0, 32⟩ = 0 ∧ fmult 16384 ⟨false, 7, 50⟩ = 206 ∧ fmult (-16384) ⟨false, 7, 50⟩ = -206 ∧
    fmult 16384 ⟨true, 7, 50⟩ = -206 ∧ fmult 32767 ⟨false, 15, 63⟩ = 30208 ∧ fmult 12288 ⟨false, 15, 39⟩ = 30720 := by
  decide
/-- 43_decoder.md R170: PCM_SHIFT scales the sample; the SR of R168's example is 22. -/
theorem test_pcm_shift :
    (decodeStep G726.transcription 0 DecoderState.reset 7 4).2 = 22 ∧
    (decodeStep G726.transcription 2 DecoderState.reset 7 4).2 = 88 := by decide
/-- 44_quantizer_tables.md R206: the magnitudes of mode B = 4 at Y = 5120. -/
theorem test_magnitudes : (List.range 8).map (fun i => antilog (logDifference Tables.transcription 4 i 5120))
    = [0, 1056, 2160, 3408, 4640, 6240, 7840, 10816] := by decide

/-! ### For every statement with hypotheses, a state and operands that meet them -/

/-- A state with everything legal: a stream of B = 4 on one channel, channel 0 RESET, two bytes in BUF. -/
def live (order : BitOrder) : State := resetCh 0 (filled [0x77, 0x77] (opened 4 1 100 (block order)))

/-- The decoder state after RESET, with a tone and a difference history that drives the signal to its lowest value. -/
def lowest : DecoderState :=
  { DecoderState.reset with b1 := -23040, dq1 := { s := false, e := 15, m := 63 }, yu := 5000, ap := 256 }

theorem witness_DecodeOfEncodeIsTheCommand : (Instr.decode 65535 31).WellFormed := by decide
theorem witness_EncodeOfDecodeIsTheWord : decode 0xFFFF1F07 = .command (.decode 65535 31) := by decide
theorem witness_WordsDecode_mask : (0xFFFF1F07 : Word) &&& 0xFFFFFFFF0000E0FF = 0x7 := by decide
theorem witness_WordsDecode_code :
    (live .msbFirst).status.opened = true ∧ 0 < (live .msbFirst).fmt.ch.toNat ∧
    2 ^ (live .msbFirst).fmt.bps.toNat ≤ 16 := by decide
theorem witness_IllegalWordsChangeOnlyStatus :
    0x10008 < 2 ^ 64 ∧ (waiting (.host (.writeReg 0 0x10008)) (live .msbFirst)).pending = .host (.writeReg 0 0x10008) :: [] ∧
    decode (BitVec.ofNat 64 0x10008) = .illegal .chField := by decide
theorem witness_StepRuns_idle : (block .msbFirst).pending = [] := by decide
theorem witness_StepRuns_powerOn : (waiting .powerOn (live .msbFirst)).pending = .powerOn :: [] := by decide
theorem witness_StepRuns_command :
    0x0A < 2 ^ 64 ∧ (waiting (.host (.writeReg 0 0x0A)) (live .msbFirst)).pending = .host (.writeReg 0 0x0A) :: [] ∧
    decode (BitVec.ofNat 64 0x0A) = .command (.decodeNext 0) := by decide
theorem witness_FetchWordRunsNext : decodeTableWord 64 0x10006 = some (.reset 1) := by decide
theorem witness_HostReads (r : Fin 64) :
    (block .msbFirst).params.WF ∧ r.val < 64 ∧
    (waiting (.host (.readReg r)) (block .msbFirst)).pending = .host (.readReg r) :: [] := by
  refine ⟨by decide, r.isLt, rfl⟩
theorem witness_HostWrites :
    ∀ r ∈ [2, 3, 4, 5, 6, 7, 14, 16, 63], r < 64 ∧ 2 ^ 64 - 1 < 2 ^ 64 ∧
    (waiting (.host (.writeReg r (2 ^ 64 - 1))) (block .msbFirst)).pending = .host (.writeReg r (2 ^ 64 - 1)) :: [] := by
  decide
theorem witness_StatusRegisterFields_write :
    0x200 < 2 ^ 64 ∧ (waiting (.host (.writeReg 1 0x200)) (block .msbFirst)).pending = .host (.writeReg 1 0x200) :: [] := by
  decide
theorem witness_StatusRegisterFields_exec :
    (∃ t, exec .total (live .msbFirst) = .next t ∧ t.status.err = .ok) ∧
    (∃ t, exec .total (block .msbFirst) = .next t ∧ t.status.err ≠ .ok) :=
  ⟨⟨_, rfl, by decide⟩, ⟨_, rfl, by decide⟩⟩
theorem witness_StatusRegisterFields_open :
    firstError (openArgs 3 2 8000 0 12 (block .msbFirst)) .openStream = .ok ∧
    decode 0x11 = .illegal .reservedField := by decide
theorem witness_StatusRegisterFields_cleared :
    ∃ t, step (waiting (.host (.writeReg 1 0x200)) (failed .format (block .msbFirst))) = .next t ∧
    (waiting (.host (.writeReg 1 0x200)) (failed .format (block .msbFirst))).status.sticky = true ∧
    t.status.sticky = false := ⟨_, rfl, by decide⟩
theorem witness_StatusRegisterFields_opened :
    ∃ t, step (waiting (.host (.writeReg 0 1)) (openArgs 3 2 8000 0 12 (block .msbFirst))) = .next t ∧
    (waiting (.host (.writeReg 0 1)) (openArgs 3 2 8000 0 12 (block .msbFirst))).status.opened = false ∧
    t.status.opened = true := ⟨_, rfl, by decide⟩
theorem witness_StatusRegisterFields_closed :
    ∃ t, step (waiting .powerOn (live .msbFirst)) = .next t ∧
    (waiting .powerOn (live .msbFirst)).status.opened = true ∧ t.status.opened = false := ⟨_, rfl, by decide⟩
theorem witness_BufLenWrites :
    64 < 2 ^ 64 ∧ 64 ≤ (block .msbFirst).params.bufBytes ∧ (block .msbFirst).params.bufBytes < 65 ∧
    (waiting (.host (.writeReg 15 64)) (block .msbFirst)).pending = .host (.writeReg 15 64) :: [] ∧
    (waiting (.host (.writeReg 15 65)) (block .msbFirst)).pending = .host (.writeReg 15 65) :: [] := by decide
theorem witness_BufLenWrites_take :
    ∃ v t, State.takeCode 4 { live .msbFirst with cursor := 12 } = some (v, t) := ⟨_, _, rfl⟩
theorem witness_WrittenByteReadsBack :
    63 < (block .msbFirst).params.bufBytes ∧ 255 < 2 ^ 8 ∧
    (waiting (.host (.writeBuf 63 255)) (block .msbFirst)).pending = .host (.writeBuf 63 255) :: [] := by decide
theorem witness_AccessesThatDoNotExist :
    (waiting (.host (.readBuf 64)) (block .msbFirst)).pending = .host (.readBuf 64) :: [] := by decide
theorem witness_HiddenState :
    ∃ t, hostAccess (.readReg 7) (live .msbFirst) = .next t := ⟨_, rfl⟩
theorem witness_FailedCommands : ∃ t, exec .total (block .msbFirst) = .next t ∧ t.status.err ≠ .ok :=
  ⟨_, rfl, by decide⟩
theorem witness_FailedWords :
    ∀ w ∈ [0x2, 0x0], ∃ t, runWord w (block .msbFirst) = .next t ∧ t.status.err ≠ .ok := by
  intro w hw
  simp only [List.mem_cons, List.not_mem_nil, or_false] at hw
  rcases hw with rfl | rfl
  · exact ⟨_, rfl, by decide⟩
  · exact ⟨_, rfl, by decide⟩
theorem witness_SuccessfulCommands :
    ∀ i ∈ [Instr.total, .addrOf, .indexOf, .byteRange, .reset 0, .decode 0 15, .unpackInit, .nextCode, .decodeNext 0],
      firstError (args 0 1 (live .msbFirst)) i = .ok ∨ firstError (args 0 0 (live .msbFirst)) i = .ok := by decide
theorem witness_FirstFailingCheck : decode 0xB = .illegal .reservedOp := by decide
theorem witness_CommandsWithoutAStream :
    (args 64 7 (block .msbFirst)).status.opened = false ∧ (args 64 7 (block .msbFirst)).arg1.toNat ≤ 7 ∧
    (args 64 7 (block .msbFirst)).arg0.toNat ≤ (args 64 7 (block .msbFirst)).params.bufBytes := by decide
/-- The five cases of OPEN: mode 6; no channel; 9 channels and 8 on a block of 8; 4 and 5 bytes of 8 channels of 5 bits. -/
theorem witness_OpenChecks :
    ¬ Mode (openArgs 6 8 1 0 5 (block .msbFirst)).arg0.toNat ∧
    (Mode (openArgs 5 0 1 0 5 (block .msbFirst)).arg0.toNat ∧ (openArgs 5 0 1 0 5 (block .msbFirst)).arg1.toNat = 0) ∧
    (let s := openArgs 5 9 1 0 5 (block .msbFirst);
      Mode s.arg0.toNat ∧ s.arg1.toNat ≠ 0 ∧ s.arg2.toNat ≠ 0 ∧ s.params.maxCh < s.arg1.toNat) ∧
    (let s := openArgs 5 8 1 0 4 (block .msbFirst);
      Mode s.arg0.toNat ∧ s.arg1.toNat ≠ 0 ∧ s.arg2.toNat ≠ 0 ∧ s.arg1.toNat ≤ s.params.maxCh ∧
      (8 * s.arg4.toNat) % (s.arg0.toNat * s.arg1.toNat) ≠ 0) ∧
    (let s := openArgs 5 8 1 0 5 (block .msbFirst);
      Mode s.arg0.toNat ∧ s.arg1.toNat ≠ 0 ∧ s.arg2.toNat ≠ 0 ∧ s.arg1.toNat ≤ s.params.maxCh ∧
      (8 * s.arg4.toNat) % (s.arg0.toNat * s.arg1.toNat) = 0) := by decide
theorem witness_Total :
    (block .msbFirst).status.opened = false ∧ (opened 4 1 0x7FFFFFFFFFFFFFFF (block .msbFirst)).status.opened = true ∧
    8 * (opened 4 1 0x7FFFFFFFFFFFFFFF (block .msbFirst)).fmt.dlen.toNat / (4 * 1) < 2 ^ 64 := by decide
theorem witness_ResultsWider :
    (args 0x4000000000000000 0 (opened 2 1 0x4000000000000000 (block .msbFirst))).FormatLegal ∧
    (args 0x4000000000000000 0 (opened 2 1 0x4000000000000000 (block .msbFirst))).status.opened = true ∧
    2 ^ 64 ≤ 8 * (opened 2 1 0x4000000000000000 (block .msbFirst)).fmt.dlen.toNat / (2 * 1) ∧
    (args 0x4000000000000000 0 (opened 2 1 0x4000000000000000 (block .msbFirst))).arg0.toNat ≤ 2 ^ 62 ∧
    (8 * 2 ^ 62 + 0) % 2 = 0 ∧ 2 ^ 64 ≤ (8 * 2 ^ 62 + 0) / 2 / 1 := by decide
theorem witness_OnlyOpenWritesTheFormat :
    ∃ t, step (waiting (.host (.writeReg 0 1)) (openArgs 3 2 8000 0 12 (live .msbFirst))) = .next t ∧
    (waiting (.host (.writeReg 0 1)) (openArgs 3 2 8000 0 12 (live .msbFirst))).status.opened = true ∧
    t.fmt ≠ (waiting (.host (.writeReg 0 1)) (openArgs 3 2 8000 0 12 (live .msbFirst))).fmt := ⟨_, rfl, by decide⟩
/-- s in B = 3, C = 2, L = 12, the stream of the translator's examples. -/
def stereo (a0 a1 : Word) : State := args a0 a1 (opened 3 2 12 (block .msbFirst))

/-- ADDR_OF of channel C, of the first address beyond byte offset L and of the last one at it. -/
theorem witness_AddrOf :
    (args 0 0 (block .msbFirst)).status.opened = false ∧
    ((stereo 0 2).status.opened = true ∧ (stereo 0 2).fmt.ch.toNat ≤ (stereo 0 2).arg1.toNat) ∧
    (let s := stereo 17 1;
      s.status.opened = true ∧ s.arg1.toNat < s.fmt.ch.toNat ∧
      s.fmt.dlen.toNat < (s.arg0.toNat * s.fmt.ch.toNat + s.arg1.toNat) * s.fmt.bps.toNat / 8) ∧
    (let s := stereo 17 0;
      s.status.opened = true ∧ s.arg1.toNat < s.fmt.ch.toNat ∧
      (s.arg0.toNat * s.fmt.ch.toNat + s.arg1.toNat) * s.fmt.bps.toNat / 8 ≤ s.fmt.dlen.toNat) := by decide
/-- INDEX_OF at bit offset 8, at byte offset L + 1, off a code's first bit, and at (L, 6). -/
theorem witness_IndexOf :
    (args 0 0 (block .msbFirst)).status.opened = false ∧
    ((stereo 0 8).status.opened = true ∧ 7 < (stereo 0 8).arg1.toNat) ∧
    ((stereo 13 7).arg1.toNat ≤ 7 ∧ (stereo 13 7).fmt.dlen.toNat < (stereo 13 7).arg0.toNat) ∧
    (let s := stereo 12 7;
      s.arg1.toNat ≤ 7 ∧ s.arg0.toNat ≤ s.fmt.dlen.toNat ∧
      (8 * s.arg0.toNat + s.arg1.toNat) % s.fmt.bps.toNat ≠ 0) ∧
    (let s := stereo 12 6;
      s.FormatLegal ∧ s.status.opened = true ∧ s.arg1.toNat ≤ 7 ∧ s.arg0.toNat ≤ s.fmt.dlen.toNat ∧
      (8 * s.arg0.toNat + s.arg1.toNat) % s.fmt.bps.toNat = 0 ∧
      (8 * s.arg0.toNat + s.arg1.toNat) / s.fmt.bps.toNat / s.fmt.ch.toNat < 2 ^ 64) := by decide
/-- BYTE_RANGE of no frame, of one frame too many, and of the last frame. -/
theorem witness_ByteRange :
    (args 0 0 (block .msbFirst)).status.opened = false ∧
    ((stereo 0 0).status.opened = true ∧ (stereo 0 0).arg1.toNat = 0) ∧
    (let s := stereo 15 2;
      8 * s.fmt.dlen.toNat / (s.fmt.bps.toNat * s.fmt.ch.toNat) < s.arg0.toNat + s.arg1.toNat) ∧
    (let s := stereo 15 1;
      s.status.opened = true ∧ s.arg1.toNat ≠ 0 ∧
      s.arg0.toNat + s.arg1.toNat ≤ 8 * s.fmt.dlen.toNat / (s.fmt.bps.toNat * s.fmt.ch.toNat)) := by decide
theorem witness_AddressRoundTrip :
    (stereo 16 0).FormatLegal ∧
    (stereo 16 0).arg1.toNat < (stereo 16 0).fmt.ch.toNat ∧
    ∃ t, exec .addrOf (stereo 16 0) = .next t ∧ t.status.err = .ok :=
  ⟨by decide, by decide, _, rfl, by decide⟩
theorem witness_ByteRangeIsMinimal :
    (stereo 15 1).FormatLegal ∧
    ∃ t, exec .byteRange (stereo 15 1) = .next t ∧ t.status.err = .ok :=
  ⟨by decide, _, rfl, by decide⟩
theorem witness_UnpackInit :
    7 < (args 0 8 (block .msbFirst)).arg1.toNat ∧
    (args 65 0 (block .msbFirst)).params.bufBytes < (args 65 0 (block .msbFirst)).arg0.toNat ∧
    (args 64 7 (block .msbFirst)).params.WF ∧ (args 64 7 (block .msbFirst)).arg1.toNat ≤ 7 ∧
    (args 64 7 (block .msbFirst)).arg0.toNat ≤ (args 64 7 (block .msbFirst)).params.bufBytes := by decide
set_option synthInstance.maxSize 1000 in
/-- NEXT_CODE with a last code that ends at bit 8·BUF_LEN − 1, and one bit further. -/
theorem witness_NextCode :
    ({ live .msbFirst with cursor := 12 } : State).Inv ∧ (live .msbFirst).status.opened = true ∧
    12 + (live .msbFirst).fmt.bps.toNat ≤ 8 * (live .msbFirst).bufLen.toNat ∧
    8 * (live .msbFirst).bufLen.toNat < 13 + (live .msbFirst).fmt.bps.toNat ∧
    (block .msbFirst).status.opened = false := by decide
theorem witness_CodesAreAssembled :
    (block .msbFirst).params.bitOrder = .msbFirst ∧ (block .lsbFirst).params.bitOrder = .lsbFirst ∧ 4 < 5 ∧
    (live .msbFirst).params.bitOrder = (filled [0x77, 0x77] (block .msbFirst)).params.bitOrder ∧
    (live .msbFirst).bufRead (7 / 8) = (filled [0x77, 0x77] (block .msbFirst)).bufRead (7 / 8) ∧
    (live .msbFirst).bufRead (7 / 8 + 1) = (filled [0x77, 0x77] (block .msbFirst)).bufRead (7 / 8 + 1) := by decide
theorem witness_CodesComeFromValidBytes :
    (∀ a, a < (live .msbFirst).bufLen.toNat →
      ({ live .msbFirst with buf := [(0, 0x77), (1, 0x77), (2, 0xFF)] } : State).bufRead a = (live .msbFirst).bufRead a) ∧
    (∃ t, exec .nextCode (live .msbFirst) = .next t ∧ t.status.err = .ok) ∧
    (∃ t, exec (.decodeNext 0) (live .msbFirst) = .next t ∧ t.status.err = .ok) := by
  refine ⟨fun a h => ?_, ⟨_, rfl, by decide⟩, ⟨_, rfl, by decide⟩⟩
  have h2 : a < 2 := h
  match a, h2 with
  | 0, _ => decide
  | 1, _ => decide
set_option synthInstance.maxSize 1000 in
/-- The third code of a stereo stream whose buffer starts in the middle of frame 1's first byte. -/
theorem witness_CodesFollowTheChannelInterleave :
    ({ filled [0xE4, 0x72] (opened 2 2 4 (block .msbFirst)) with cursor := 4 } : State).Inv ∧ 4 + 8 = (3 * 2) * 2 ∧
    ∃ u v, afterCodes 2 { filled [0xE4, 0x72] (opened 2 2 4 (block .msbFirst)) with cursor := 4 } = some u ∧
      exec .nextCode u = .next v ∧ v.status.err = .ok := ⟨by decide, by decide, _, _, rfl, rfl, by decide⟩
theorem witness_Reset :
    (block .msbFirst).status.opened = false ∧ (live .msbFirst).status.opened = true ∧
    (live .msbFirst).fmt.ch.toNat ≤ 1 ∧ 0 < (live .msbFirst).fmt.ch.toNat ∧ 65535 < 2 ^ 16 := by decide
/-- DECODE with the code 15 and the code 16 of B = 4, on a channel with and without READY. -/
theorem witness_Decode :
    (live .msbFirst).status.opened = true ∧ (live .msbFirst).fmt.ch.toNat ≤ 1 ∧ 0 < (live .msbFirst).fmt.ch.toNat ∧
    2 ^ (live .msbFirst).fmt.bps.toNat ≤ 16 ∧ 15 < 2 ^ (live .msbFirst).fmt.bps.toNat ∧
    (live .msbFirst).isReady 0 = true ∧ (opened 4 1 100 (block .msbFirst)).isReady 0 = false := by decide
set_option synthInstance.maxSize 1000 in
theorem witness_DecodeNext :
    ({ live .msbFirst with cursor := 12 } : State).Inv ∧ (live .msbFirst).status.opened = true ∧
    (live .msbFirst).fmt.ch.toNat ≤ 1 ∧ 0 < (live .msbFirst).fmt.ch.toNat ∧ (live .msbFirst).isReady 0 = true ∧
    (opened 4 1 100 (block .msbFirst)).isReady 0 = false ∧ 12 + 4 ≤ 8 * (live .msbFirst).bufLen.toNat ∧
    8 * (live .msbFirst).bufLen.toNat < 13 + 4 := by decide
theorem witness_DecodeNextIsNextCodeThenDecode :
    (live .msbFirst).FormatLegal ∧ ∃ t u, exec .nextCode (live .msbFirst) = .next t ∧ t.status.err = .ok ∧
      exec (.decode 0 t.res0.toNat) t = .next u ∧ u.status.err = .ok :=
  ⟨by decide, _, _, rfl, by decide, rfl, by decide⟩
theorem witness_DecodeDependsOnItsChannelAlone :
    (live .lsbFirst).params.g726 = (live .msbFirst).params.g726 ∧
    (live .lsbFirst).params.pcmShift = (live .msbFirst).params.pcmShift ∧
    (live .lsbFirst).status.opened = (live .msbFirst).status.opened ∧ (live .lsbFirst).fmt = (live .msbFirst).fmt ∧
    (live .lsbFirst).isReady 0 = (live .msbFirst).isReady 0 ∧ (live .lsbFirst).decoder 0 = (live .msbFirst).decoder 0 ∧
    ∃ t, exec (.decode 0 7) (live .msbFirst) = .next t ∧ t.status.err = .ok :=
  ⟨by decide, by decide, by decide, by decide, by decide, by decide, _, rfl, by decide⟩
theorem witness_ReadyGuardsDecoding :
    (∃ t, exec (.reset 0) (live .msbFirst) = .next t ∧ t.status.err = .ok) ∧
    (∃ t, exec .openStream (openArgs 3 2 8000 0 12 (live .msbFirst)) = .next t ∧ t.status.err = .ok) ∧
    (∃ t, exec .openStream (openArgs 6 2 8000 0 12 (live .msbFirst)) = .next t ∧ t.status.err ≠ .ok) ∧
    (opened 4 1 100 (block .msbFirst)).status.opened = true ∧ 0 < (opened 4 1 100 (block .msbFirst)).fmt.ch.toNat ∧
    (opened 4 1 100 (block .msbFirst)).isReady 0 = false ∧ 15 < 2 ^ 4 :=
  ⟨⟨_, rfl, by decide⟩, ⟨_, rfl, by decide⟩, ⟨_, rfl, by decide⟩, by decide, by decide, by decide, by decide⟩
theorem witness_DecoderStatePersists :
    ∃ t, step (waiting (.host (.writeReg 0 0xA)) (live .msbFirst)) = .next t ∧
    t.decoder 0 ≠ (waiting (.host (.writeReg 0 0xA)) (live .msbFirst)).decoder 0 := ⟨_, rfl, by decide⟩
/-- The step's values and the step itself with the default parameters. -/
abbrev sig := signals Tables.transcription
abbrev dec := decodeStep G726.transcription 2
theorem witness_G726 : G726.transcription.InRange ∧ G726.transcription.datapath = .transcription := by decide
theorem witness_DecodeStepKeepsLegalStates : lowest.Legal ∧ Mode 5 ∧ 31 < 2 ^ 5 := by decide
/-- SR above, below and within the range of R170's clip. -/
theorem witness_SampleIsTheClippedSignal :
    32767 < (sig { lowest with b1 := 23040 } 14 5).sr * 4 ∧ (sig lowest 16 5).sr * 4 < -32768 ∧
    (-32768 ≤ (sig DecoderState.reset 7 4).sr * 4 ∧ (sig DecoderState.reset 7 4).sr * 4 ≤ 32767) := by decide
theorem witness_FloatHoldsSixLeadingBits : (0 ≤ 32767 ∧ (0 : Nat) = 0) ∧ (32767 ≤ 32767 ∧ (32767 : Nat) ≠ 0) := by decide
theorem witness_ProductsFitSixteenBits :
    xor (decide ((-32768#16).toInt < 0)) false = true ∧ xor (decide ((32767#16).toInt < 0)) false = false := by decide
theorem witness_ScaleFactorAndMagnitudeRanges :
    DecoderState.reset.Legal ∧ Mode 4 ∧ 15 < 2 ^ 4 ∧ tblDqln Tables.transcription 4 15 = -2048 := by decide
/-- A transition: TD = 1 and a difference above the threshold; and none. -/
theorem witness_Transition :
    ({ lowest with td := true } : DecoderState).Legal ∧
    transitionThreshold lowest.yl.toNat < antilog (logDifference Tables.transcription 5 16 (scaleFactor { lowest with td := true })) ∧
    lowest.td = false := by decide
theorem witness_ScaleFactorsAveragesAndSpeed :
    (lowest.Legal ∧ Mode 5 ∧ 16 < 2 ^ 5) ∧ (sig { lowest with td := true } 16 5).tr = true ∧
    ((sig DecoderState.reset 7 4).tr = false ∧ (sig DecoderState.reset 7 4).y < 1536) ∧
    ((sig { lowest with dms := 0, dml := 14336, yu := 2000 } 0 5).tr = false ∧
      ¬ ((sig { lowest with yu := 2000 } 0 5).y < 1536)) := by decide
/-- The speed control falls: Y ≥ 1536, TD' = 0 and the two averages agree. -/
theorem witness_SpeedFalls :
    let d : DecoderState := { DecoderState.reset with yu := 2000, yl := 128000, dms := 512, dml := 2048 }
    d.Legal ∧ (sig d 9 5).tr = false ∧ ¬ ((sig d 9 5).y < 1536 ∨ (dec d 9 5).1.td = true ∨
      ((dec d 9 5).1.dml.toNat : Int) / 8
        ≤ ((4 * ((dec d 9 5).1.dms.toNat : Int) - (dec d 9 5).1.dml.toNat).natAbs : Int)) := by decide
theorem witness_CoefficientsLeakAndAdapt :
    DecoderState.reset.Legal ∧ (sig DecoderState.reset 0 4).tr = false ∧
    (sig DecoderState.reset 0 4).dqsez = 0 ∧ (sig DecoderState.reset 7 4).tr = false ∧
    (sig DecoderState.reset 7 4).dqsez ≠ 0 := by decide
/-- The four cases of the new SR1, with SR = −32768 among them, and a negative code of zero magnitude. -/
theorem witness_HistoriesMoveDown :
    0 ≤ (sig DecoderState.reset 0 4).sr ∧
    ((sig DecoderState.reset 8 4).sr < 0 ∧ (sig DecoderState.reset 8 4).sr ≠ -32768) ∧
    (sig lowest 16 5).sr = -32768 ∧
    ((sig DecoderState.reset 15 4).ds = true ∧ (sig DecoderState.reset 15 4).dqmag = 0) := by decide
theorem witness_TableEntries : Mode 2 ∧ 3 < 2 ^ 2 ∧ Mode 5 ∧ 31 < 2 ^ 5 ∧ tblDqln Tables.transcription 5 1 ≠ -2048 := by decide
set_option synthInstance.maxSize 1000 in
theorem witness_StepKeepsTheInvariant :
    (waiting (.host (.writeReg 0 0xA)) (live .msbFirst)).Inv ∧
    ∃ t, step (waiting (.host (.writeReg 0 0xA)) (live .msbFirst)) = .next t := ⟨by decide, _, rfl⟩
theorem witness_Params :
    ({ maxCh := 1, bufBytes := 2, bitOrder := .lsbFirst } : Params).WF ∧
    ({ maxCh := 2 ^ 64 - 1, bufBytes := 2 ^ 61 - 1, bitOrder := .msbFirst } : Params).WF := by decide
theorem witness_HardwareReset :
    (live .msbFirst).params = (block .msbFirst).params ∧ (block .msbFirst).params.WF := by decide
theorem witness_FrameOfOpen :
    (∃ t, exec .openStream (openArgs 3 2 8000 0 12 (live .msbFirst)) = .next t ∧ t.status.err = .ok) ∧
    (∃ t, exec .openStream (openArgs 6 2 8000 0 12 (live .msbFirst)) = .next t ∧ t.status.err ≠ .ok) :=
  ⟨⟨_, rfl, by decide⟩, ⟨_, rfl, by decide⟩⟩
theorem witness_FrameOfTranslatorCommands :
    (∃ t, exec .total (live .msbFirst) = .next t ∧ t.status.err = .ok) ∧
    (∃ t, exec .addrOf (live .msbFirst) = .next t ∧ t.status.err = .ok) ∧
    (∃ t, exec .indexOf (live .msbFirst) = .next t ∧ t.status.err = .ok) ∧
    (∃ t, exec .byteRange (args 0 1 (live .msbFirst)) = .next t ∧ t.status.err = .ok) :=
  ⟨⟨_, rfl, by decide⟩, ⟨_, rfl, by decide⟩, ⟨_, rfl, by decide⟩, ⟨_, rfl, by decide⟩⟩
theorem witness_FrameOfUnpackerCommands :
    (∃ t, exec .unpackInit (live .msbFirst) = .next t ∧ t.status.err = .ok) ∧
    (∃ t, exec .nextCode (live .msbFirst) = .next t ∧ t.status.err = .ok) :=
  ⟨⟨_, rfl, by decide⟩, ⟨_, rfl, by decide⟩⟩
theorem witness_FrameOfDecoderCommands :
    (∃ t, exec (.reset 0) (live .msbFirst) = .next t ∧ t.status.err = .ok) ∧
    (∃ t, exec (.decode 0 7) (live .msbFirst) = .next t ∧ t.status.err = .ok) ∧
    (∃ t, exec (.decodeNext 0) (live .msbFirst) = .next t ∧ t.status.err = .ok) :=
  ⟨⟨_, rfl, by decide⟩, ⟨_, rfl, by decide⟩, ⟨_, rfl, by decide⟩⟩

/-- A byte source that holds the byte 0x77 everywhere. -/
def sevens : ByteSource := fun _ len => some (List.replicate len 0x77)

/-- What a segment call returned, in brief: the samples, or the error. -/
def outcome (r : SegmentRun) : Option (List Int) × Option ErrCode :=
  match r.result with
  | .segment out _ _ => (some (out.map BitVec.toInt), none)
  | .failed e => (none, some e)
  | .refused _ => (none, none)

/-- Two frames of a mono stream (43_decoder.md R183's example), and the four failures of a call. -/
theorem witness_SegmentCalls :
    outcome (segmentDecode sevens true 0 2 (opened 4 1 100 (block .msbFirst))) = (some [88, 104], none) ∧
    outcome (segmentDecode sevens true 0 2 (block .msbFirst)) = (none, some .notReady) ∧
    outcome (segmentDecode sevens true 199 2 (opened 4 1 100 (block .msbFirst))) = (none, some .outOfRange) ∧
    outcome (segmentDecode sevens true 0 130 (opened 4 1 100 (block .msbFirst))) = (none, some .capacity) ∧
    outcome (segmentDecode (fun _ _ => none) true 0 2 (opened 4 1 100 (block .msbFirst))) = (none, some .ioError) := by
  decide
set_option synthInstance.maxSize 1000 in
/-- A continued call on a channel that is READY, and one with no sample. -/
theorem witness_SegmentCalls_continued :
    (resetCh 0 (opened 4 1 100 (block .msbFirst))).Inv ∧
    (∀ c, c < 1 → (resetCh 0 (opened 4 1 100 (block .msbFirst))).isReady c = true) ∧
    outcome (segmentDecode sevens false 2 2 (resetCh 0 (opened 4 1 100 (block .msbFirst)))) = (some [88, 104], none) ∧
    outcome (segmentDecode sevens false 2 0 (resetCh 0 (opened 4 1 100 (block .msbFirst)))) = (some [], none) :=
  ⟨by decide, fun c h => by obtain rfl : c = 0 := by omega
                            decide, by decide, by decide⟩

/-- A session with the mode on, after the call for frames 0 and 1, with OPEN's operands written again. -/
def afterTwo : SegmentSession :=
  let v : SegmentSession := { host := .initial, block := opened 4 1 100 (block .msbFirst) }
  let u := ((v.setMode true).call sevens 0 2).1
  { u with block := openArgs 4 1 8000 0 100 u.block }

/-- The samples of frames 2 and 3 when x happens before the host asks for them. -/
def nextTwoAfter (x : Input) : Option (List Int) × Option ErrCode :=
  match afterTwo.input x with
  | .next v => outcome (v.call sevens 2 2).2
  | .fault _ => (none, none)
  | .refused _ => (none, none)

/-- 46_host_segment.md R229 with the samples of 43_decoder.md R183: frames 2 and 3 give 128, 192 when the state is
kept. -/
theorem test_continuation_kept : nextTwoAfter (.host (.readReg 7)) = (some [128, 192], none) := by decide
/-- R229: after a RESET, or an OPEN, the next call RESETs and gives 88, 104; after power-on no stream is open. -/
theorem test_continuation_ended :
    nextTwoAfter (.host (.writeReg 0 0x6)) = (some [88, 104], none) ∧
    nextTwoAfter (.host (.writeReg 0 0x1)) = (some [88, 104], none) ∧
    nextTwoAfter .powerOn = (none, some .notReady) := by decide
set_option synthInstance.maxSize 1000 in
theorem witness_SegmentCalls_state :
    (opened 4 1 100 (block .msbFirst)).Inv ∧ (opened 4 1 100 (block .msbFirst)).fmt.ch.toNat ≤ 2 ^ 16 ∧
    (block .msbFirst).status.opened = false ∧
    (∃ u, runOps (Pseudo.byteRange 199 2).ops (opened 4 1 100 (block .msbFirst)) = .next u ∧ u.status.err ≠ .ok) ∧
    (∃ u, runOps (Pseudo.byteRange 0 130).ops (opened 4 1 100 (block .msbFirst)) = .next u ∧
      u.params.bufBytes < u.res1.toNat - u.res0.toNat + 1) :=
  ⟨by decide, by decide, by decide, ⟨_, rfl, by decide⟩, ⟨_, rfl, by decide⟩⟩

end Sys2Proof.Tests
end

section
/-! The ranges of what one decoder step stores: each value of the next state stays in the range that 10_state.md R33
gives its field, so that storing it loses nothing. -/

namespace Sys2Proof.Machine

/-! ### Float words -/

/-- A float word made from a magnitude has its leading six bits as mantissa, so the mantissa is 32 or more. -/
theorem toFloat_legal (s : Bool) (mag : Nat) : (toFloat s mag).Legal := by
  by_cases h0 : mag = 0
  · subst h0
    simp [Float11.Legal, toFloat]
  · obtain ⟨hlo, hhi⟩ := bitlen_spec h0
    have hpos : 1 ≤ bitlen mag := by
      by_contra hlt
      have : bitlen mag = 0 := by omega
      rw [this] at hhi
      omega
    have hpow : 2 ^ bitlen mag = 2 * 2 ^ (bitlen mag - 1) := by
      rw [← pow_succ', Nat.sub_add_cancel hpos]
    have hm : mag <<< 6 >>> bitlen mag = mag * 64 / 2 ^ bitlen mag := by
      rw [Nat.shiftLeft_eq, Nat.shiftRight_eq_div_pow]
    have hge : 32 ≤ mag * 64 / 2 ^ bitlen mag := by
      rw [Nat.le_div_iff_mul_le (by positivity)]
      omega
    have hlt : mag * 64 / 2 ^ bitlen mag < 64 := by
      rw [Nat.div_lt_iff_lt_mul (by positivity)]
      omega
    simp only [Float11.Legal, toFloat, if_neg h0, hm, BitVec.toNat_ofNat]
    omega

theorem floatSignal_legal (sr : Int) : (floatSignal sr).Legal := by
  unfold floatSignal
  split
  · exact toFloat_legal _ _
  · exact toFloat_legal _ _

/-! ### The scale factor and the speed control -/

/-- A share of at most n of a number is at most n times its positive part. -/
theorem mul_le_max_mul {x w n : Int} (hw : 0 ≤ w) (hn : w ≤ n) : x * w ≤ max x 0 * n :=
  calc x * w ≤ max x 0 * w := mul_le_mul_of_nonneg_right (le_max_left x 0) hw
    _ ≤ max x 0 * n := mul_le_mul_of_nonneg_left hn (le_max_right x 0)

/-- Y lies between the slow and the fast scale factor, so in their common range (43_decoder.md R167). -/
theorem scaleFactor_range {d : DecoderState} (hyu : 544 ≤ d.yu.toNat ∧ d.yu.toNat ≤ 5120)
    (hyl : 34816 ≤ d.yl.toNat ∧ d.yl.toNat ≤ 327680) : 544 ≤ scaleFactor d ∧ scaleFactor d ≤ 5120 := by
  unfold scaleFactor
  split
  · omega
  · rename_i hap
    have hal : d.ap.toNat >>> 2 < 64 := by
      rw [Nat.shiftRight_eq_div_pow]
      omega
    have hyls : 544 ≤ d.yl.toNat >>> 6 ∧ d.yl.toNat >>> 6 ≤ 5120 := by
      rw [Nat.shiftRight_eq_div_pow]
      omega
    dsimp only
    generalize d.ap.toNat >>> 2 = al at hal
    generalize d.yl.toNat >>> 6 = yls at hyls
    generalize d.yu.toNat = yu at hyu
    have hup := mul_le_max_mul (x := (yu : Int) - yls) (w := al) (n := 64) (by omega) (by omega)
    have hdown := mul_le_max_mul (x := -((yu : Int) - yls)) (w := al) (n := 64) (by omega) (by omega)
    rw [neg_mul] at hdown
    simp only [asr_eq_div]
    split
    · omega
    · omega

theorem nextYu_range (t : Tables) (b i : Nat) (y : Int) : 544 ≤ nextYu t b i y ∧ nextYu t b i y ≤ 5120 :=
  clamp_range (by decide)

/-- The slow scale factor stays between 64 times the bounds of the fast one (43_decoder.md R173). -/
theorem nextYl_range {yl yu : Int} (hyl : 34816 ≤ yl ∧ yl ≤ 327680) (hyu : 544 ≤ yu ∧ yu ≤ 5120) :
    34816 ≤ nextYl yl yu ∧ nextYl yl yu ≤ 327680 := by
  simp only [nextYl, asr_eq_div]
  omega

theorem nextAp_range {ap : Int} (h : 0 ≤ ap ∧ ap ≤ 511) (tr ax : Bool) :
    0 ≤ nextAp ap tr ax ∧ nextAp ap tr ax ≤ 511 := by
  unfold nextAp
  split
  · omega
  · split
    all_goals
      simp only [asr_eq_div]
      omega

theorem nextDms_range {t : Tables} {b i : Nat} {dms : Int} (hf : 0 ≤ tblF t b i ∧ tblF t b i ≤ 7)
    (h : 0 ≤ dms ∧ dms ≤ 3584) : 0 ≤ nextDms t b i dms ∧ nextDms t b i dms ≤ 3584 := by
  simp only [nextDms, asr_eq_div]
  omega

theorem nextDml_range {t : Tables} {b i : Nat} {dml : Int} (hf : 0 ≤ tblF t b i ∧ tblF t b i ≤ 7)
    (h : 0 ≤ dml ∧ dml ≤ 14336) : 0 ≤ nextDml t b i dml ∧ nextDml t b i dml ≤ 14336 := by
  simp only [nextDml, asr_eq_div]
  omega

/-! ### The pole coefficients -/

/-- The second pole coefficient is cleared, leaks towards 0, or is clamped (43_decoder.md R174, R175). -/
theorem nextA2_range {d : DecoderState} (h : -12288 ≤ d.a2.toInt ∧ d.a2.toInt ≤ 12288) (g : Signals) :
    -12288 ≤ nextA2 d g ∧ nextA2 d g ≤ 12288 := by
  unfold nextA2
  split
  · decide
  · dsimp only
    split
    · simp only [asr_eq_div]
      omega
    · exact clamp_range (by decide)

/-- The first pole coefficient is cleared or clamped to 15360 less the second one (43_decoder.md R174, R176). -/
theorem nextA1_range {d : DecoderState} (h : -12288 ≤ d.a2.toInt ∧ d.a2.toInt ≤ 12288) (g : Signals) :
    -27648 ≤ nextA1 d g ∧ nextA1 d g ≤ 27648 := by
  have ha2 := nextA2_range h g
  have hc : ∀ x : Int, -27648 ≤ clamp x (-(15360 - nextA2 d g)) (15360 - nextA2 d g) ∧
      clamp x (-(15360 - nextA2 d g)) (15360 - nextA2 d g) ≤ 27648 := fun x => by
    have := clamp_range (x := x) (lo := -(15360 - nextA2 d g)) (hi := 15360 - nextA2 d g) (by omega)
    omega
  unfold nextA1
  split
  · decide
  · exact hc _

/-! ### The next state and the sample -/

/-- A value in the range of an unsigned field is held in that range. -/
theorem toNat_ofInt_range {n : Nat} {x : Int} {lo hi : Nat} (h : (lo : Int) ≤ x ∧ x ≤ hi) (hhi : hi < 2 ^ n) :
    lo ≤ (BitVec.ofInt n x).toNat ∧ (BitVec.ofInt n x).toNat ≤ hi := by
  have := toNat_ofInt_of_range (n := n) (x := x) ⟨by omega, by omega⟩
  omega

/-- A value in a range of 16 bits is held in that range. -/
theorem toInt_ofInt16_range {x lo hi : Int} (h : lo ≤ x ∧ x ≤ hi) (hlo : -32768 ≤ lo) (hhi : hi ≤ 32767) :
    lo ≤ (BitVec.ofInt 16 x).toInt ∧ (BitVec.ofInt 16 x).toInt ≤ hi := by
  rw [toInt_ofInt16_of_range ⟨by omega, by omega⟩]
  exact h

/-- The next state of a legal one is legal, where the code's entry of F is in range. -/
theorem nextDecoder_legal {t : Tables} {d : DecoderState} {i b : Nat} (hf : 0 ≤ tblF t b i ∧ tblF t b i ≤ 7)
    (hd : d.Legal) (g : Signals) : (nextDecoder t d i b g).Legal := by
  obtain ⟨-, hyl, hap, hdms, hdml, -, ha2, hsr1, -, hdq1, hdq2, hdq3, hdq4, hdq5, -⟩ := hd
  have hyu' := nextYu_range t b i g.y
  refine ⟨toNat_ofInt_range hyu' (by decide),
    toNat_ofInt_range (nextYl_range (by omega) hyu') (by decide),
    (toNat_ofInt_range (lo := 0) (nextAp_range (by omega) _ _) (by decide)).2,
    (toNat_ofInt_range (lo := 0) (nextDms_range hf (by omega)) (by decide)).2,
    (toNat_ofInt_range (lo := 0) (nextDml_range hf (by omega)) (by decide)).2,
    toInt_ofInt16_range (nextA1_range ha2 g) (by decide) (by decide),
    toInt_ofInt16_range (nextA2_range ha2 g) (by decide) (by decide),
    floatSignal_legal _, hsr1, toFloat_legal _ _, hdq1, hdq2, hdq3, hdq4, hdq5⟩

/-- With G726 in range DecodeStep takes a legal state and a code of the mode to a legal state. -/
theorem decodeStep_legal {q : G726} {d : DecoderState} {i b : Nat} (hq : q.InRange) (hd : d.Legal)
    (hb : b = 2 ∨ b = 3 ∨ b = 4 ∨ b = 5) (hi : i < 2 ^ b) (sh : Nat) : (decodeStep q sh d i b).1.Legal := by
  rw [decodeStep_transcription hq.datapath]
  obtain ⟨-, -, -, -, hf⟩ := hq.entries hb hi
  exact nextDecoder_legal hf hd _

/-- Every sample is the result of R170's clip. -/
theorem decodeStep_sample_range (q : G726) (sh : Nat) (d : DecoderState) (i b : Nat) :
    -32768 ≤ (decodeStep q sh d i b).2 ∧ (decodeStep q sh d i b).2 ≤ 32767 :=
  clamp_range (by decide)

theorem DecoderState.reset_legal : DecoderState.reset.Legal := by decide

end Sys2Proof.Machine
end

section
/-! The invariant of the block: what each update of the state must meet to keep it, then that every command and every
step meets it. -/

namespace Sys2Proof.Machine

/-! ### A code of b bits is below 2^b -/

/-- Zeros and ones, each times the weight of its place in a code of b bits, sum to less than 2^b. -/
theorem sum_mul_bitWeight_lt (order : BitOrder) (b : Nat) (bit : Nat → Nat) (hbit : ∀ t, bit t ≤ 1) :
    ((List.range b).map fun t => bit t * bitWeight order b t).sum < 2 ^ b := by
  cases order with
  | msbFirst =>
    induction b generalizing bit with
    | zero => simp
    | succ b ih =>
      have hrest := ih (fun t => bit (t + 1)) (fun t => hbit (t + 1))
      have hfirst : bit 0 * 2 ^ b ≤ 1 * 2 ^ b := Nat.mul_le_mul_right _ (hbit 0)
      simp only [List.sum_range_succ', bitWeight, Nat.succ_eq_add_one, Nat.add_sub_cancel, Nat.sub_zero,
        Nat.sub_sub, Nat.add_comm 1] at hrest ⊢
      omega
  | lsbFirst =>
    induction b with
    | zero => simp
    | succ b ih =>
      have hlast : bit b * 2 ^ b ≤ 1 * 2 ^ b := Nat.mul_le_mul_right _ (hbit b)
      simp only [List.sum_range_succ, bitWeight] at ih ⊢
      omega

/-- A code is below 2^b (42_unpacker.md R142). -/
theorem codeAt_lt (j b : Nat) (s : State) : s.codeAt j b < 2 ^ b :=
  sum_mul_bitWeight_lt _ b (fun t => s.streamBit (j + t)) fun t => streamBit_le_one (j + t) s

/-- After an insertion the new key and the old ones are listed. -/
theorem isSome_sparseFind_sparseInsert {α : Type} {k a : Nat} {v : α} {m : List (Nat × α)}
    (h : a = k ∨ (sparseFind a m).isSome = true) : (sparseFind a (sparseInsert k v m)).isSome = true := by
  by_cases hak : a = k
  · rw [hak, sparseFind_insert_same]
    rfl
  · rw [sparseFind_insert_other hak]
    exact h.resolve_left hak

/-! ### What an update must meet

The invariant does not read ARG, RES, `powerOns`, `freeIndex`, `pending` and `reply`: a state that differs in these
alone has the invariant by the same proof. -/

namespace State

/-- STATUS.ERR may take every code but 4, and STICKY any value. -/
theorem Inv.setStatus {s : State} (h : s.Inv) {u : Status} (herr : u.err ≠ .ioError)
    (hopen : u.opened = s.status.opened) : ({ s with status := u } : State).Inv := by
  obtain ⟨hp, -, hfmt, hbuf, hdec⟩ := h
  refine ⟨hp, herr, ?_, hbuf, ?_⟩
  · simpa only [State.FormatLegal, hopen] using hfmt
  · simpa only [State.DecodersLegal, hopen] using hdec

theorem Inv.fail {s : State} (h : s.Inv) {e : ErrCode} (he : e ≠ .ioError) : (s.fail e).Inv := h.setStatus he rfl

theorem Inv.succeed {s : State} (h : s.Inv) : s.succeed.Inv := h.setStatus nofun rfl

theorem Inv.setRes0Wide {s : State} (h : s.Inv) (n : Nat) : (s.setRes0Wide n).Inv := by
  obtain ⟨v, k, heq⟩ := s.setRes0Wide_eq n
  rw [heq]
  exact h

theorem Inv.setCursor {s : State} (h : s.Inv) {j : Nat} (hj : j ≤ 8 * s.params.bufBytes + 7) :
    (s.setCursor j).Inv := by
  obtain ⟨hp, herr, hfmt, ⟨hwf, hcells, hlen, -⟩, hdec⟩ := h
  refine ⟨hp, herr, hfmt, ⟨hwf, hcells, hlen, ?_⟩, hdec⟩
  exact (Nat.mod_le j (2 ^ 64)).trans hj

/-- CURSOR moved past a code that lies below 8·BUF_LEN stays in its bounds. -/
theorem Inv.advance {s : State} (h : s.Inv) {b : Nat} (hb : s.cursor.toNat + b ≤ 8 * s.bufLen.toNat) :
    (s.setCursor (s.cursor.toNat + b)).Inv := by
  obtain ⟨-, -, -, ⟨-, -, hlen, -⟩, -⟩ := id h
  exact h.setCursor (by omega)

theorem Inv.writeBufLen {s : State} (h : s.Inv) (v : Word) : (s.writeBufLen v).Inv := by
  rcases s.writeBufLen_cases v with ⟨-, heq⟩ | ⟨hv, heq⟩
  · rw [heq]
    exact h.fail nofun
  · obtain ⟨hp, herr, hfmt, ⟨hwf, hcells, -, hcur⟩, hdec⟩ := h
    have hset : (s.setBufLen v).Inv := ⟨hp, herr, hfmt, ⟨hwf, hcells, hv, hcur⟩, hdec⟩
    rw [heq]
    exact hset.succeed

theorem Inv.bufWrite {s : State} (h : s.Inv) {i : Nat} (hi : i < s.params.bufBytes) (v : Byte) :
    (s.bufWrite i v).Inv := by
  obtain ⟨hp, herr, hfmt, ⟨hwf, hcells, hlen, hcur⟩, hdec⟩ := h
  refine ⟨hp, herr, hfmt, ⟨State.bufWrite_wf i v hwf, fun cell hcell => ?_, hlen, hcur⟩, hdec⟩
  rcases mem_sparseInsert hcell with rfl | hold
  · exact hi
  · exact hcells cell hold

theorem Inv.setDecoder {s : State} (h : s.Inv) {c : Nat} {d : DecoderState} (hc : c < s.params.maxCh)
    (hd : s.params.g726.InRange → d.Legal) : (s.setDecoder c d).Inv := by
  obtain ⟨hp, herr, hfmt, hbuf, hkeys, hlegal, hrise, hready⟩ := h
  refine ⟨hp, herr, hfmt, hbuf, keysRising_insert c d hkeys, fun e he => ?_, hrise, fun a ha => ?_⟩
  · rcases mem_sparseInsert he with rfl | hold
    · exact ⟨hc, hd⟩
    · exact hlegal e hold
  · obtain ⟨hopen, hach, hlisted⟩ := hready a ha
    exact ⟨hopen, hach, isSome_sparseFind_sparseInsert (.inr hlisted)⟩

theorem Inv.markReady {s : State} (h : s.Inv) {c : Nat} (hopen : s.status.opened = true) (hc : c < s.channels)
    (hlisted : (sparseFind c s.decoders).isSome = true) : (s.markReady c).Inv := by
  obtain ⟨hp, herr, hfmt, hbuf, hkeys, hlegal, hrise, hready⟩ := h
  refine ⟨hp, herr, hfmt, hbuf, hkeys, hlegal, rising_setInsert c hrise, fun a ha => ?_⟩
  rcases (mem_setInsert c a s.ready).mp ha with rfl | hold
  · exact ⟨hopen, hc, hlisted⟩
  · exact hready a hold

/-- A format that passes OPEN's checks is legal, and no channel is READY under it. -/
theorem Inv.openFormat {s : State} (h : s.Inv) (hb : legalWidth s.argN0 = true) (hc : s.argN1 ≠ 0)
    (hr : s.argN2 ≠ 0) (hcap : s.argN1 ≤ s.params.maxCh) (hdiv : (8 * s.argN4) % (s.argN0 * s.argN1) = 0) :
    (s.openFormat s.argFormat).Inv := by
  obtain ⟨hp, herr, -, hbuf, hkeys, hlegal, -, -⟩ := h
  have hmode : s.argN0 = 2 ∨ s.argN0 = 3 ∨ s.argN0 = 4 ∨ s.argN0 = 5 := by
    simpa [legalWidth, or_assoc] using hb
  exact ⟨hp, herr, ⟨fun _ => ⟨hmode, Nat.pos_of_ne_zero hc, hcap, Nat.pos_of_ne_zero hr, hdiv⟩, nofun⟩, hbuf,
    hkeys, hlegal, rfl, nofun⟩

theorem Inv.powerOn {s : State} (hp : s.params.WF) : s.powerOn.Inv := by
  have hfmt : s.powerOn.FormatLegal := by simp [State.FormatLegal, Status.reset]
  have hbuf : s.powerOn.BufferLegal := by simp [State.BufferLegal, Memory.wf_nil]
  have hdec : s.powerOn.DecodersLegal := by simp [State.DecodersLegal, keysRising, rising]
  exact ⟨hp, nofun, hfmt, hbuf, hdec⟩

/-- The state of a READY channel is a listed one, so it is legal where G726 is in range. -/
theorem Inv.decoder_legal {s : State} (h : s.Inv) {c : Nat} (hready : s.isReady c = true)
    (hq : s.params.g726.InRange) : (s.decoder c).Legal := by
  obtain ⟨-, -, -, -, -, hlegal, -, hlisted⟩ := h
  obtain ⟨-, -, hsome⟩ := hlisted c ((State.isReady_iff c s).mp hready)
  obtain ⟨d, hd⟩ := Option.isSome_iff_exists.mp hsome
  simp only [State.decoder, hd]
  exact (hlegal (c, d) (mem_of_sparseFind hd)).2 hq

/-- While a stream is open its width is one of the four modes and its channels are ones of the block. -/
theorem Inv.format {s : State} (h : s.Inv) (hopen : s.status.opened = true) :
    (s.width = 2 ∨ s.width = 3 ∨ s.width = 4 ∨ s.width = 5) ∧ s.channels ≤ s.params.maxCh := by
  obtain ⟨-, -, ⟨hfmt, -⟩, -, -⟩ := h
  obtain ⟨hmode, -, hcap, -, -⟩ := hfmt hopen
  exact ⟨hmode, hcap⟩

/-- One decoder step on a READY channel of the open stream, on a code of its width. -/
theorem Inv.decodeOn {s : State} (h : s.Inv) {c i : Nat} (hopen : s.status.opened = true) (hc : c < s.channels)
    (hready : s.isReady c = true) (hi : i < 2 ^ s.width) : (s.decodeOn c i).Inv := by
  obtain ⟨hmode, hcap⟩ := h.format hopen
  exact h.setDecoder (hc.trans_le hcap) fun hq => decodeStep_legal hq (h.decoder_legal hready hq) hmode hi _

end State

/-! ### Every command and every step -/

/-- An answer keeps the invariant of the state s. -/
def KeepsInv (s : State) (a : Answer) : Prop := s.Inv → ∀ t, a = .next t → t.Inv

theorem FailsWith.keepsInv {a : Answer} {s : State} {es : List ErrCode} (h : FailsWith a s es)
    (hes : ErrCode.ioError ∉ es) : KeepsInv s a := by
  rintro hs t ht
  obtain ⟨e, he, rfl⟩ := h
  rw [(failWith_next e s t).mp ht]
  exact hs.fail fun heq => hes (heq ▸ he)

theorem keepsInv_of_finish {a : Answer} {s u : State} (ha : a = finish u) (h : s.Inv → u.Inv) : KeepsInv s a := by
  rintro hs t ht
  rw [(finish_next u t).mp (ha ▸ ht)]
  exact (h hs).succeed

theorem exec_keepsInv (i : Instr) (s : State) : KeepsInv s (exec i s) := by
  cases i with
  | openStream =>
    rcases execOpen_cases s with hf | ⟨hb, hc, hr, hcap, hdiv, heq⟩
    · exact hf.keepsInv (by decide)
    · exact keepsInv_of_finish heq fun h => h.openFormat hb hc hr hcap hdiv
  | total =>
    rcases execTotal_cases s with hf | ⟨-, heq⟩
    · exact hf.keepsInv (by decide)
    · exact keepsInv_of_finish heq fun h => h.setRes0Wide _
  | addrOf =>
    rcases execAddrOf_cases s with hf | ⟨-, -, -, heq⟩
    · exact hf.keepsInv (by decide)
    · exact keepsInv_of_finish heq fun h => h
  | indexOf =>
    rcases execIndexOf_cases s with hf | ⟨-, -, -, -, heq⟩
    · exact hf.keepsInv (by decide)
    · exact keepsInv_of_finish heq fun h => h.setRes0Wide _
  | byteRange =>
    rcases execByteRange_cases s with hf | ⟨-, -, -, heq⟩
    · exact hf.keepsInv (by decide)
    · exact keepsInv_of_finish heq fun h => h
  | reset c =>
    rcases execReset_cases c s with hf | ⟨hopen, hc, heq⟩
    · exact hf.keepsInv (by decide)
    · refine keepsInv_of_finish heq fun h => ?_
      have hset := h.setDecoder (hc.trans_le (h.format hopen).2) fun _ => DecoderState.reset_legal
      exact hset.markReady hopen hc (isSome_sparseFind_sparseInsert (.inl rfl))
  | decode c k =>
    rcases execDecode_cases c k s with hf | ⟨hopen, hc, hk, hready, heq⟩
    · exact hf.keepsInv (by decide)
    · exact keepsInv_of_finish heq fun h => h.decodeOn hopen hc hready hk
  | unpackInit =>
    rcases execUnpackInit_cases s with hf | ⟨hbit, hbyte, heq⟩
    · exact hf.keepsInv (by decide)
    · exact keepsInv_of_finish heq fun h => h.setCursor (by omega)
  | nextCode =>
    rcases execNextCode_cases s with hf | ⟨-, hlen, heq⟩
    · exact hf.keepsInv (by decide)
    · exact keepsInv_of_finish heq fun h => h.advance hlen
  | decodeNext c =>
    rcases execDecodeNext_cases c s with hf | ⟨hopen, hc, hready, hlen, heq⟩
    · exact hf.keepsInv (by decide)
    · exact keepsInv_of_finish heq fun h => (h.advance hlen).decodeOn hopen hc hready (codeAt_lt _ _ s)

theorem step_keepsInv {s t : State} (hs : s.Inv) (h : step s = .next t) : t.Inv := by
  rcases step_next_cases h with ⟨-, rfl⟩ | ⟨rest, -, rfl⟩ | ⟨w, rest, -, -, i, -, hexec⟩ | ⟨w, rest, -, -, -, rfl⟩ |
    ⟨v, rest, -, -, rfl⟩ | ⟨v, rest, -, -, rfl⟩ | ⟨rest, a0, a1, a2, a3, a4, rfl⟩ | ⟨rest, i, v, hi, rfl⟩ |
    ⟨rest, r, rfl⟩
  case inl => exact hs
  all_goals obtain ⟨hp, herr, -, -, -⟩ := id hs
  all_goals have htaken : (s.afterInput rest).Inv := hs
  · exact State.Inv.powerOn hp
  · exact exec_keepsInv i _ htaken t hexec
  · exact htaken.fail nofun
  · exact htaken.setStatus herr rfl
  · exact htaken.writeBufLen _
  · exact hs
  · exact htaken.bufWrite hi v
  · exact hs

end Sys2Proof.Machine
end

section
/-! The host's accesses as steps, STATUS as a word, and which check of a command is reported. -/

namespace Sys2Proof.Machine

open Sys2Proof.Claims

/-! ### One host access as a step -/

/-- A step on a host write runs the write on the state with that input taken. -/
theorem step_writeReg {s : State} {r v : Nat} {rest : List Input} (hr : r < 64) (hv : v < 2 ^ 64)
    (hp : s.pending = .host (.writeReg r v) :: rest) : step s = writeReg r (word v) (s.afterInput rest) := by
  rw [step_input hp]
  simp only [takeInput, hostAccess, if_neg (Nat.not_le.mpr hr), if_neg (Nat.not_le.mpr hv)]
  rfl

/-- A step on a host write of CMD runs the word. -/
theorem step_command {s : State} {w : Nat} {rest : List Input} (hw : w < 2 ^ 64)
    (hp : s.pending = .host (.writeReg 0 w) :: rest) : step s = runWord (word w) (s.afterInput rest) :=
  step_writeReg (by decide) hw hp

theorem runWord_command {w : Word} {i : Instr} (h : decode w = .command i) (s : State) : runWord w s = exec i s := by
  simp only [runWord, h]

theorem runWord_illegal {w : Word} {why : Illegal} (h : decode w = .illegal why) (s : State) :
    runWord w s = .next (s.fail .illegalCommand) := by
  simp only [runWord, h, execIllegal, failWith]

theorem writeReg_bufLen (v : Word) (s : State) : writeReg 15 v s = .next (s.writeBufLen v) := rfl

/-- A write of a read-only or reserved register is ignored (10_state.md R23, R32). -/
theorem writeReg_ignored {r : Nat} (h7 : 7 ≤ r) (h15 : r ≠ 15) (v : Word) (s : State) : writeReg r v s = .next s := by
  unfold writeReg
  split
  case h_9 => rfl
  all_goals omega

theorem hostAccess_readReg_next (r : Nat) (s t : State) :
    hostAccess (.readReg r) s = .next t ↔ r < 64 ∧ t = s.setReply (some (.reg (s.readReg r))) := by
  simp only [hostAccess]
  split_ifs with hr
  · simp [hr]
  · simp [Nat.not_le.mp hr, eq_comm]

theorem hostAccess_readBuf_next (i : Nat) (s t : State) :
    hostAccess (.readBuf i) s = .next t ↔
      i < s.params.bufBytes ∧ t = s.setReply (some (.byte (s.bufRead i))) := by
  simp only [hostAccess]
  split_ifs with hi
  · simp [hi]
  · simp [Nat.not_le.mp hi, eq_comm]

/-- A step on a host read of a register gives its value and changes nothing else. -/
theorem step_readReg {s : State} {r : Nat} {rest : List Input} (hr : r < 64)
    (hp : s.pending = .host (.readReg r) :: rest) :
    step s = .next { s with pending := rest, reply := some (.reg (s.readReg r)) } := by
  rw [step_input hp]
  exact (hostAccess_readReg_next r _ _).mpr ⟨hr, rfl⟩

/-! ### What a code depends on -/

/-- A code depends on the bit order and the bytes that hold its bits alone. -/
theorem codeAt_congr {s u : State} {j b : Nat} (horder : u.params.bitOrder = s.params.bitOrder)
    (hbytes : ∀ k, k < b → u.bufRead ((j + k) / 8) = s.bufRead ((j + k) / 8)) : u.codeAt j b = s.codeAt j b := by
  unfold State.codeAt
  congr 1
  refine List.map_congr_left fun k hk => ?_
  simp only [State.streamBit, horder, hbytes k (List.mem_range.mp hk)]

/-- A code that lies below the flat bit index 8·n depends on the first n bytes of BUF alone. -/
theorem codeAt_withBuf {s : State} {m : List Host.Cell} {n j b : Nat}
    (hbytes : ∀ a, a < n → { s with buf := m }.bufRead a = s.bufRead a) (hlen : j + b ≤ 8 * n) :
    { s with buf := m }.codeAt j b = s.codeAt j b :=
  codeAt_congr rfl fun k hk => hbytes ((j + k) / 8) (by omega)

/-! ### STATUS as a word -/

theorem ErrCode.code_lt (e : ErrCode) : e.code < 16 := by cases e <;> decide

theorem Status.word_toNat (u : Status) :
    u.word.toNat = u.err.code + 256 * u.opened.toNat + 512 * u.sticky.toNat := by
  obtain ⟨e, o, k⟩ := u
  have hcode := e.code_lt
  cases o <;> cases k <;> simp [Status.word] <;> omega

/-- The five fields of the word that a read of STATUS gives (10_state.md R25). -/
theorem Status.word_fields (u : Status) :
    u.word.toNat % 16 = u.err.code ∧ u.word.toNat / 2 ^ 4 % 2 ^ 4 = 0 ∧ u.word.getLsbD 8 = u.opened ∧
      u.word.getLsbD 9 = u.sticky ∧ u.word.toNat / 2 ^ 10 = 0 := by
  have hcode := u.err.code_lt
  have ho := u.opened.toNat_le
  have hk := u.sticky.toNat_le
  have hw := u.word_toNat
  have hbit8 : u.word.toNat / 2 ^ 8 % 2 = u.opened.toNat := by omega
  have hbit9 : u.word.toNat / 2 ^ 9 % 2 = u.sticky.toNat := by omega
  refine ⟨by omega, by omega, ?_, ?_, by omega⟩
  · rw [BitVec.getLsbD, Nat.testBit_eq_decide_div_mod_eq, hbit8]
    cases u.opened <;> rfl
  · rw [BitVec.getLsbD, Nat.testBit_eq_decide_div_mod_eq, hbit9]
    cases u.sticky <;> rfl

/-- The bit of a written STATUS value that clears STICKY. -/
theorem word_getLsbD_nine (v : Nat) : (word v).getLsbD 9 = v.testBit 9 := by
  rw [word, BitVec.getLsbD_ofNat]
  simp

/-- The register map (10_state.md R23) as numbers. -/
theorem readReg_toNat {s : State} (h : s.params.WF) (r : Nat) : (s.readReg r).toNat = registerValue s r := by
  obtain ⟨-, hch, -, hbuf⟩ := h
  unfold State.readReg
  split
  case h_2 => simp [registerValue, Status.word_toNat]
  case h_17 => exact word_toNat_of_lt (by omega)
  case h_18 => exact word_toNat_of_lt hch
  case h_19 => simp_all [registerValue]
  all_goals rfl

/-! ### Which check is reported -/

theorem legalWidth_eq_false_iff (b : Nat) : legalWidth b = false ↔ ¬ Mode b := by
  simp [legalWidth, Mode, and_assoc]

/-- NEXT_CODE as its two checks and its writes. -/
theorem execNextCode_eq (s : State) :
    execNextCode s =
      if s.status.opened = false then failWith .notReady s
      else if 8 * s.bufLen.toNat < s.cursor.toNat + s.width then failWith .truncated s
      else finish ((s.setCursor (s.cursor.toNat + s.width)).setRes0 (word (s.codeAt s.cursor.toNat s.width))) := by
  unfold execNextCode
  split_ifs with hopen hlen
  · rfl
  · rw [(takeCode_none_iff _ _).mpr hlen]
  · rw [takeCode_of_le (Nat.not_lt.mp hlen)]

/-- DECODE_NEXT as its four checks and its writes. -/
theorem execDecodeNext_eq (c : Nat) (s : State) :
    execDecodeNext c s =
      if s.status.opened = false then failWith .notReady s
      else if s.channels ≤ c then failWith .outOfRange s
      else if s.isReady c = false then failWith .notReady s
      else if 8 * s.bufLen.toNat < s.cursor.toNat + s.width then failWith .truncated s
      else finish (((s.setCursor (s.cursor.toNat + s.width)).decodeOn c
        (s.codeAt s.cursor.toNat s.width)).setRes1 (word (s.codeAt s.cursor.toNat s.width))) := by
  unfold execDecodeNext
  split_ifs with hopen hc hready hlen
  · rfl
  · rfl
  · rfl
  · rw [(takeCode_none_iff _ _).mpr hlen]
  · rw [takeCode_of_le (Nat.not_lt.mp hlen)]

/-- A command on s ends with the code e: with `ok` after its writes where e is 0, and otherwise with `fail e`, which
leaves all of s but STATUS. -/
def EndsWith (s : State) (a : Answer) (e : ErrCode) : Prop :=
  (e = .ok ∧ ∃ u, a = finish u) ∨ (e ≠ .ok ∧ a = failWith e s)

namespace EndsWith

variable {s : State} {a a' : Answer} {e e' : ErrCode}

theorem ok (u : State) : EndsWith s (finish u) .ok := .inl ⟨rfl, u, rfl⟩

theorem fails (he : e ≠ .ok) : EndsWith s (failWith e s) e := .inr ⟨he, rfl⟩

/-- A check that a command makes and that R241's table lists: both sides fail there, or both go on. -/
theorem check {p p' : Prop} [Decidable p] [Decidable p'] (he : e ≠ .ok) (hp : p ↔ p') (h : EndsWith s a e') :
    EndsWith s (if p then failWith e s else a) (if p' then e else e') := by
  by_cases hc : p
  · rw [if_pos hc, if_pos (hp.mp hc)]
    exact fails he
  · rw [if_neg hc, if_neg (mt hp.mpr hc)]
    exact h

/-- A command answers a next state with that code in STATUS.ERR. -/
theorem exists_next (h : EndsWith s a e) : ∃ t, a = .next t ∧ t.status.err = e := by
  rcases h with ⟨rfl, u, rfl⟩ | ⟨-, rfl⟩
  · exact ⟨u.succeed, rfl, rfl⟩
  · exact ⟨s.fail e, rfl, rfl⟩

theorem err_eq {t : State} (h : EndsWith s a e) (ha : a = .next t) : t.status.err = e := by
  obtain ⟨u, hu, herr⟩ := h.exists_next
  rw [hu] at ha
  injection ha with ha
  exact ha ▸ herr

end EndsWith

/-- Every command makes the checks of 60_exceptions.md R241 in the order of its table. -/
theorem exec_endsWith (i : Instr) (s : State) : EndsWith s (exec i s) (firstError s i) := by
  cases i with
  | openStream =>
    exact .check nofun (legalWidth_eq_false_iff _) (.check nofun .rfl (.check nofun .rfl (.check nofun .rfl (.ok _))))
  | total => exact .check nofun .rfl (.ok _)
  | addrOf => exact .check nofun .rfl (.check nofun .rfl (.check nofun .rfl (.ok _)))
  | indexOf =>
    exact .check nofun .rfl (.check nofun .rfl (.check nofun .rfl (.check nofun .rfl (.ok _))))
  | byteRange =>
    simp only [exec, execByteRange, ite_or]
    exact .check nofun .rfl (.check nofun .rfl (.check nofun .rfl (.ok _)))
  | reset c => exact .check nofun .rfl (.check nofun .rfl (.ok _))
  | decode c k =>
    exact .check nofun .rfl (.check nofun .rfl (.check nofun .rfl (.check nofun .rfl (.ok _))))
  | unpackInit =>
    simp only [exec, execUnpackInit, ite_or]
    exact .check nofun .rfl (.check nofun .rfl (.ok _))
  | nextCode =>
    simp only [exec, execNextCode_eq]
    exact .check nofun .rfl (.check nofun .rfl (.ok _))
  | decodeNext c =>
    simp only [exec, execDecodeNext_eq]
    exact .check nofun .rfl (.check nofun .rfl (.check nofun .rfl (.check nofun .rfl (.ok _))))

theorem exec_err_eq_firstError {i : Instr} {s t : State} (h : exec i s = .next t) : t.status.err = firstError s i :=
  (exec_endsWith i s).err_eq h

/-- The first check that fails decides how a command ends, whatever it would have written. -/
theorem exec_of_firstError_ne_ok {i : Instr} {s : State} (h : firstError s i ≠ .ok) :
    exec i s = .next (s.fail (firstError s i)) := by
  rcases exec_endsWith i s with ⟨hok, -⟩ | ⟨-, heq⟩
  · exact absurd hok h
  · exact heq

/-- STICKY after a command: kept, and set where a check fails (60_exceptions.md R242, R243). -/
theorem exec_sticky {i : Instr} {s t : State} (h : exec i s = .next t) :
    t.status.sticky = (s.status.sticky || decide (firstError s i ≠ .ok)) := by
  rw [← exec_err_eq_firstError h]
  rcases exec_next_status h with ⟨e, he, -, rfl⟩ | ⟨herr, hsticky, -⟩
  · simp [he]
  · simp [herr, hsticky]

/-- STATUS.OPEN after a command: only a successful OPEN changes it (10_state.md R25). -/
theorem exec_opened {i : Instr} {s t : State} (h : exec i s = .next t) :
    t.status.opened = s.status.opened ∨ (i = .openStream ∧ t.status.err = .ok ∧ t.status.opened = true) := by
  rcases exec_next_status h with ⟨e, -, -, rfl⟩ | ⟨herr, -, hkept | ⟨hi, hopen⟩, -⟩
  · exact .inl rfl
  · exact .inl hkept
  · exact .inr ⟨hi, herr, hopen⟩

theorem FailsWith.of_next {a : Answer} {s t : State} {es : List ErrCode} (h : FailsWith a s es) (ha : a = .next t) :
    t.status.err ∈ es ∧ t = s.fail t.status.err := by
  obtain ⟨e, he, hfail⟩ := h
  obtain rfl := (failWith_next e s t).mp (hfail.symm.trans ha)
  exact ⟨he, rfl⟩

/-- OPEN fails and changes STATUS alone, or latches the format, opens the stream and clears READY. -/
theorem exec_openStream_cases {s t : State} (h : exec .openStream s = .next t) :
    (t.status.err ≠ .ok ∧ t = s.fail t.status.err) ∨
    (t.status.err = .ok ∧ t = (s.openFormat s.argFormat).succeed) := by
  rcases execOpen_cases s with hfail | ⟨-, -, -, -, -, heq⟩
  · obtain ⟨hmem, ht⟩ := hfail.of_next h
    exact .inl ⟨fun hok => by simp [hok] at hmem, ht⟩
  · obtain rfl := (finish_next _ t).mp (heq.symm.trans h)
    exact .inr ⟨rfl, rfl⟩

/-- RESET that succeeds leaves the channel READY. -/
theorem exec_reset_isReady {c : Nat} {s t : State} (h : exec (.reset c) s = .next t) (herr : t.status.err = .ok) :
    t.isReady c = true := by
  rcases execReset_cases c s with hfail | ⟨-, -, heq⟩
  · obtain ⟨hmem, -⟩ := hfail.of_next h
    simp [herr] at hmem
  · obtain rfl := (finish_next _ t).mp (heq.symm.trans h)
    exact State.isReady_markReady_same c (s.setDecoder c DecoderState.reset)

end Sys2Proof.Machine
end

section
/-! The statements about the state and its registers (10_state.md). -/

namespace Sys2Proof.Proofs

open Sys2Proof.Machine Sys2Proof.Claims

/-- Settles O51: every input that a step takes keeps the invariant. -/
theorem stepKeepsTheInvariant : Obligations.StepKeepsTheInvariant :=
  fun _ _ hs h => step_keepsInv hs h

/-- Settles O40: the ranges of the fields of the next state, and the clip of the sample. -/
theorem decodeStepKeepsLegalStates : Obligations.DecodeStepKeepsLegalStates :=
  fun q sh d i b => ⟨fun hq hd hb hi => decodeStep_legal hq hd hb hi sh, decodeStep_sample_range q sh d i b⟩

/-! ### STATUS -/

/-- STICKY falls only by a host write of STATUS with bit 9 = 1 or by power-on (10_state.md R25). -/
theorem sticky_cleared_by {s t : State} (h : step s = .next t) (hs : s.status.sticky = true)
    (ht : t.status.sticky = false) :
    PowerOnNext s ∨ ∃ v rest, s.pending = .host (.writeReg 1 v) :: rest ∧ v.testBit 9 = true := by
  rcases step_next_cases h with ⟨-, rfl⟩ | ⟨rest, hp, -⟩ | ⟨w, rest, -, -, i, -, hexec⟩ | ⟨w, rest, -, -, -, rfl⟩ |
    ⟨v, rest, hp, -, rfl⟩ | ⟨v, rest, -, -, rfl⟩ | ⟨rest, a0, a1, a2, a3, a4, rfl⟩ | ⟨rest, i, v, hi, rfl⟩ |
    ⟨rest, r, rfl⟩
  · simp [hs] at ht
  · exact .inl ⟨rest, hp⟩
  · simp [exec_sticky hexec, hs] at ht
  · simp at ht
  · refine .inr ⟨v, rest, hp, ?_⟩
    rw [State.writeStatus_status, Status.written_sticky, hs, word_getLsbD_nine] at ht
    simpa using ht
  · rcases (s.afterInput rest).writeBufLen_cases (word v) with ⟨-, heq⟩ | ⟨-, heq⟩
    · simp [heq] at ht
    · simp [heq, hs] at ht
  · simp [hs] at ht
  · simp [hs] at ht
  · simp [hs] at ht

/-- A step keeps STATUS.OPEN, but for power-on and a successful OPEN (10_state.md R25). -/
theorem opened_changed_by {s t : State} (h : step s = .next t) :
    t.status.opened = s.status.opened ∨ (PowerOnNext s ∧ t.status.opened = false) ∨
    (t.status.opened = true ∧
      ∃ w, CommandNext s w ∧ decode (BitVec.ofNat 64 w) = .command .openStream ∧ t.status.err = .ok) := by
  rcases step_next_cases h with ⟨-, rfl⟩ | ⟨rest, hp, rfl⟩ | ⟨w, rest, hw, hp, i, hdec, hexec⟩ |
    ⟨w, rest, -, -, -, rfl⟩ | ⟨v, rest, -, -, rfl⟩ | ⟨v, rest, -, -, rfl⟩ | ⟨rest, a0, a1, a2, a3, a4, rfl⟩ |
    ⟨rest, i, v, hi, rfl⟩ | ⟨rest, r, rfl⟩
  · exact .inl rfl
  · exact .inr (.inl ⟨⟨rest, hp⟩, rfl⟩)
  · rcases exec_opened hexec with hkept | ⟨rfl, herr, hopen⟩
    · exact .inl hkept
    · exact .inr (.inr ⟨hopen, w, ⟨hw, rest, hp⟩, hdec, herr⟩)
  · exact .inl rfl
  · exact .inl rfl
  · rcases (s.afterInput rest).writeBufLen_cases (word v) with ⟨-, heq⟩ | ⟨-, heq⟩
    all_goals
      rw [heq]
      exact .inl rfl
  · exact .inl rfl
  · exact .inl rfl
  · exact .inl rfl

/-- Settles O10: the word that a read of STATUS gives, and what each access does to ERR, OPEN and STICKY. -/
theorem statusRegisterFields : Obligations.StatusRegisterFields := by
  refine ⟨fun s => s.status.word_fields, fun s v rest hv hp => ?_, fun i s t h => ⟨exec_err_eq_firstError h,
    exec_sticky h, ?_⟩, fun s w why hw => runWord_illegal hw s, fun s v rest hv hcap hp => ?_,
    fun s t h hs ht => sticky_cleared_by h hs ht, fun s t h hs ht => ?_, fun s t h hs ht => ?_, fun p => rfl⟩
  · rw [step_writeReg (by decide) hv hp, ← word_getLsbD_nine]
    rfl
  · rintro rfl hok
    rw [← exec_err_eq_firstError h] at hok
    rcases exec_openStream_cases h with ⟨herr, -⟩ | ⟨-, rfl⟩
    · exact absurd hok herr
    · rfl
  · rw [step_writeReg (by decide) hv hp, writeReg_bufLen]
    rcases (s.afterInput rest).writeBufLen_cases (word v) with ⟨-, heq⟩ | ⟨hle, -⟩
    · exact ⟨_, rfl, by rw [heq]; rfl⟩
    · rw [word_toNat_of_lt hv] at hle
      exact absurd hle (Nat.not_le.mpr hcap)
  · rcases opened_changed_by h with hkept | ⟨-, hoff⟩ | ⟨-, hcause⟩
    · simp [hs, ht] at hkept
    · simp [ht] at hoff
    · exact hcause
  · rcases opened_changed_by h with hkept | ⟨hpower, -⟩ | ⟨hon, -⟩
    · simp [hs, ht] at hkept
    · exact hpower
    · simp [ht] at hon

/-! ### The unpacker and READY -/

/-- Where the first answer is a next state, the second is that state with the content m of BUF. -/
def AgreesWithBuf (m : List Host.Cell) (a a' : Answer) : Prop := ∀ t, a = .next t → a' = .next { t with buf := m }

theorem AgreesWithBuf.finish (m : List Host.Cell) (u : State) :
    AgreesWithBuf m (Machine.finish u) (Machine.finish { u with buf := m }) := by
  intro t h
  obtain rfl := (finish_next u t).mp h
  rfl

/-- A check that does not read BUF, and what follows it. -/
theorem AgreesWithBuf.check {m : List Host.Cell} {p : Prop} [Decidable p] {e : ErrCode} {s : State} {a a' : Answer}
    (h : ¬ p → AgreesWithBuf m a a') :
    AgreesWithBuf m (if p then failWith e s else a) (if p then failWith e { s with buf := m } else a') := by
  split_ifs with hp
  · intro t ht
    obtain rfl := (failWith_next e s t).mp ht
    rfl
  · exact h hp

section
variable {s : State} {m : List Host.Cell}
  (hbytes : ∀ a, a < s.bufLen.toNat → { s with buf := m }.bufRead a = s.bufRead a)
include hbytes

theorem execNextCode_agrees : AgreesWithBuf m (execNextCode s) (execNextCode { s with buf := m }) := by
  rw [execNextCode_eq, execNextCode_eq]
  refine .check fun _ => .check fun hlen => ?_
  dsimp only
  rw [codeAt_withBuf hbytes (Nat.not_lt.mp hlen)]
  exact .finish m _

theorem execDecodeNext_agrees (c : Nat) :
    AgreesWithBuf m (execDecodeNext c s) (execDecodeNext c { s with buf := m }) := by
  rw [execDecodeNext_eq, execDecodeNext_eq]
  refine .check fun _ => .check fun _ => .check fun _ => .check fun hlen => ?_
  dsimp only
  rw [codeAt_withBuf hbytes (Nat.not_lt.mp hlen)]
  exact .finish m _

end

/-- Settles O31: a code that is taken ends at or before the flat bit index 8·BUF_LEN. -/
theorem codesComeFromValidBytes : Obligations.CodesComeFromValidBytes :=
  fun _ t _ hbytes => ⟨execNextCode_agrees hbytes t, fun c => execDecodeNext_agrees hbytes c t⟩

/-- Settles O38: RESET marks the channel, OPEN and reset clear READY, and the decode commands check it. -/
theorem readyGuardsDecoding : Obligations.ReadyGuardsDecoding := by
  refine ⟨fun s t c h herr => exec_reset_isReady h herr, fun s t h => ?_, fun p c => rfl, fun s c => rfl,
    fun s c i hopen hc hready => ⟨fun hi => ?_, ?_⟩⟩
  · rcases exec_openStream_cases h with ⟨herr, ht⟩ | ⟨herr, ht⟩
    · refine ⟨fun hok => absurd hok herr, fun _ c => ?_⟩
      rw [ht]
      rfl
    · refine ⟨fun _ c => ?_, fun hne => absurd herr hne⟩
      rw [ht]
      rfl
  · have herr : firstError s (.decode c i) = .notReady := by
      simp [firstError, hopen, hready, Nat.not_le.mpr hc, Nat.not_le.mpr hi]
    exact herr ▸ exec_of_firstError_ne_ok (herr ▸ nofun)
  · have herr : firstError s (.decodeNext c) = .notReady := by
      simp [firstError, hopen, hready, Nat.not_le.mpr hc]
    exact herr ▸ exec_of_firstError_ne_ok (herr ▸ nofun)

/-! ### The step and the host's accesses -/

/-- Settles O6: the three kinds of step. -/
theorem stepRunsTheDecodedCommand : Obligations.StepRunsTheDecodedCommand := by
  refine ⟨fun s h => step_idle h, fun s rest hp => step_input hp, fun s w rest i hw hp hdec => ?_⟩
  rw [step_command hw hp]
  exact runWord_command hdec _

/-- Settles O7: the word placed in front is the next input. -/
theorem fetchWordRunsNext : Obligations.FetchWordRunsNext := by
  intro s nbits w i hi
  have hdec : decode (tableWord nbits w) = .command i := by
    unfold decodeTableWord at hi
    split at hi
    · injection hi with hi
      rwa [← hi]
    · cases hi
  rw [step_command (tableWord nbits w).isLt rfl, word, BitVec.ofNat_toNat, BitVec.setWidth_eq]
  exact runWord_command hdec _

/-- Settles O8: a read gives the map's entry and leaves the rest. -/
theorem hostReadsFollowTheRegisterMap : Obligations.HostReadsFollowTheRegisterMap :=
  fun s r _ hwf hr hp => ⟨s.readReg r, readReg_toNat hwf r, step_readReg hr hp⟩

/-- Settles O9: the five ARG registers, and every index that is read-only or reserved. -/
theorem hostWritesFollowTheRegisterMap : Obligations.HostWritesFollowTheRegisterMap := by
  intro s r v rest hr hv hp
  rw [step_writeReg hr hv hp]
  refine ⟨?_, ?_, ?_, ?_, ?_, fun h7 h15 => writeReg_ignored h7 h15 _ _⟩
  all_goals
    rintro rfl
    rfl

/-- Settles O11: the check of a write of BUF_LEN, and TakeCode's check against it. -/
theorem bufLenWritesAreChecked : Obligations.BufLenWritesAreChecked := by
  refine ⟨fun s v rest hv hp => ?_, rfl, fun s t b v htake => ((takeCode_some_iff b v s t).mp htake).1⟩
  rw [step_writeReg (by decide) hv hp, writeReg_bufLen]
  have hvn := word_toNat_of_lt hv
  rcases (s.afterInput rest).writeBufLen_cases (word v) with ⟨hlt, heq⟩ | ⟨hle, heq⟩
  · rw [hvn] at hlt
    rw [heq]
    exact ⟨fun hle => absurd hle (Nat.not_le.mpr hlt), fun _ => rfl⟩
  · rw [hvn] at hle
    rw [heq]
    exact ⟨fun _ => rfl, fun hlt => absurd hle (Nat.not_le.mpr hlt)⟩

/-- Settles O14: neither read looks at the decoder states or READY. -/
theorem hiddenStateIsUnreadable : Obligations.HiddenStateIsUnreadable := by
  rintro s t ds rd op (⟨r, rfl⟩ | ⟨i, rfl⟩) h
  · obtain ⟨hr, rfl⟩ := (hostAccess_readReg_next r s t).mp h
    exact (hostAccess_readReg_next r _ _).mpr ⟨hr, rfl⟩
  · obtain ⟨hi, rfl⟩ := (hostAccess_readBuf_next i s t).mp h
    exact (hostAccess_readBuf_next i _ _).mpr ⟨hi, rfl⟩

end Sys2Proof.Proofs
end

section
/-! BUF as the host accesses it, and which accesses exist (20_memory.md R60 to R62). -/

namespace Sys2Proof.Machine

open Sys2Proof.Claims

/-- A step on a host write of a byte of BUF writes it and changes nothing else. -/
theorem step_writeBuf {s : State} {i v : Nat} {rest : List Input} (hi : i < s.params.bufBytes) (hv : v < 2 ^ 8)
    (hp : s.pending = .host (.writeBuf i v) :: rest) :
    step s = .next ((s.afterInput rest).bufWrite i (BitVec.ofNat 8 v)) := by
  rw [step_input hp]
  exact (if_neg (Nat.not_le.mpr hi)).trans (if_neg (Nat.not_le.mpr hv))

/-! ### No access that exists is refused -/

theorem runWord_completes (w : Word) (s : State) : ∃ t, runWord w s = .next t := by
  cases hdec : decode w with
  | command i =>
    obtain ⟨t, ht, -⟩ := (exec_endsWith i s).exists_next
    exact ⟨t, (runWord_command hdec s).trans ht⟩
  | illegal why => exact ⟨_, runWord_illegal hdec s⟩

theorem writeReg_completes (r : Nat) (v : Word) (s : State) : ∃ t, writeReg r v s = .next t := by
  unfold writeReg
  split
  case h_1 => exact runWord_completes v s
  all_goals exact ⟨_, rfl⟩

theorem hostAccess_completes {op : HostOp} {s : State} (h : ¬ Outside s.params op) :
    ∃ t, hostAccess op s = .next t := by
  cases op with
  | writeReg r v =>
    obtain ⟨hr, hv⟩ := not_or.mp h
    simp only [hostAccess, if_neg hr, if_neg hv]
    exact writeReg_completes r _ _
  | readReg r => exact ⟨_, if_neg h⟩
  | writeBuf i v =>
    obtain ⟨hi, hv⟩ := not_or.mp h
    exact ⟨_, (if_neg hi).trans (if_neg hv)⟩
  | readBuf i => exact ⟨_, if_neg h⟩

/-- An access outside R61 is refused, the index being checked before the value. -/
theorem hostAccess_refuses {op : HostOp} {s : State} (h : Outside s.params op) :
    ∃ r, hostAccess op s = .refused r := by
  cases op with
  | writeReg r v =>
    by_cases hr : 64 ≤ r
    · exact ⟨_, if_pos hr⟩
    · exact ⟨_, (if_neg hr).trans (if_pos (h.resolve_left hr))⟩
  | readReg r => exact ⟨_, if_pos h⟩
  | writeBuf i v =>
    by_cases hi : s.params.bufBytes ≤ i
    · exact ⟨_, if_pos hi⟩
    · exact ⟨_, (if_neg hi).trans (if_pos (h.resolve_left hi))⟩
  | readBuf i => exact ⟨_, if_pos h⟩

theorem hostAccess_refused_iff (op : HostOp) (s : State) :
    (∃ r, hostAccess op s = .refused r) ↔ Outside s.params op := by
  refine ⟨fun ⟨r, hr⟩ => ?_, hostAccess_refuses⟩
  by_contra hinside
  obtain ⟨t, ht⟩ := hostAccess_completes hinside
  simp [hr] at ht

end Sys2Proof.Machine
end

section
/-! The statements about BUF and the host's accesses (20_memory.md). -/

namespace Sys2Proof.Proofs

open Sys2Proof.Machine Sys2Proof.Claims

/-- Settles O12: the step is one write of BUF, and a read after it gives the byte. -/
theorem writtenByteReadsBack : Obligations.WrittenByteReadsBack := by
  intro s i v rest hi hv hp
  refine ⟨_, step_writeBuf hi hv hp, ?_, fun a ha => State.bufRead_bufWrite_other ha _ _, rfl, fun rest' => ?_⟩
  · rw [State.bufRead_bufWrite_same, BitVec.toNat_ofNat, Nat.mod_eq_of_lt hv]
  · refine (hostAccess_readBuf_next i _ _).mpr ⟨hi, ?_⟩
    have hread : { (s.afterInput rest).bufWrite i (BitVec.ofNat 8 v) with pending := rest' }.bufRead i
        = BitVec.ofNat 8 v := State.bufRead_bufWrite_same i _ { s.afterInput rest with pending := rest' }
    rw [hread]
    rfl

/-- Settles O13: a step on a host access is that access, which is refused exactly outside R61. -/
theorem accessesThatDoNotExistAreRefused : Obligations.AccessesThatDoNotExistAreRefused := by
  intro s op rest hp
  rw [step_input hp]
  exact hostAccess_refused_iff op (s.setPending rest)

end Sys2Proof.Proofs
end

section
/-! Command words and their fields: a word is its six fields, and which words decode to which command
(30_encoding.md R80 to R82). -/

namespace Sys2Proof.Laws

/-! ### A word is its six fields -/

theorem field_eq_div_mod (w : Word) (hi lo : Nat) : field w hi lo = w.toNat / 2 ^ lo % 2 ^ (hi + 1 - lo) := by
  rw [field, Nat.shiftRight_eq_div_pow]

theorem field_lt (w : Word) (hi lo : Nat) : field w hi lo < 2 ^ (hi + 1 - lo) := Nat.mod_lt _ (Nat.two_pow_pos _)

theorem field_and (v w : Word) (hi lo : Nat) : field (v &&& w) hi lo = field v hi lo &&& field w hi lo := by
  simp only [field, BitVec.toNat_and, Nat.shiftRight_and_distrib, Nat.and_mod_two_pow]

/-- The six fields by division; the topmost one is the whole word above bit 31. -/
theorem fields_eq_div_mod (w : Word) :
    field w 3 0 = w.toNat % 16 ∧ field w 7 4 = w.toNat / 2 ^ 4 % 2 ^ 4 ∧ field w 12 8 = w.toNat / 2 ^ 8 % 2 ^ 5 ∧
      field w 15 13 = w.toNat / 2 ^ 13 % 2 ^ 3 ∧ field w 31 16 = w.toNat / 2 ^ 16 % 2 ^ 16 ∧
      field w 63 32 = w.toNat / 2 ^ 32 := by
  refine ⟨?_, field_eq_div_mod w 7 4, field_eq_div_mod w 12 8, field_eq_div_mod w 15 13, field_eq_div_mod w 31 16, ?_⟩
  · rw [field_eq_div_mod]
    omega
  · have hw := w.isLt
    rw [field_eq_div_mod]
    omega

/-- Two words are the same exactly when their fields OP, Z0, CODE, Z1, CH and Z2 (30_encoding.md R80) are. -/
theorem word_eq_iff_fields {v w : Word} :
    v = w ↔
      field v 3 0 = field w 3 0 ∧ field v 7 4 = field w 7 4 ∧ field v 12 8 = field w 12 8 ∧
      field v 15 13 = field w 15 13 ∧ field v 31 16 = field w 31 16 ∧ field v 63 32 = field w 63 32 := by
  constructor
  · rintro rfl
    exact ⟨rfl, rfl, rfl, rfl, rfl, rfl⟩
  · simp only [field_eq_div_mod]
    rintro ⟨hop, hz0, hcode, hz1, hch, hz2⟩
    have hv := v.isLt
    have hw := w.isLt
    exact BitVec.eq_of_toNat_eq (by omega)

/-! ### Which words decode to which command -/

/-- A word decodes to a command only where the check lets it through. -/
theorem check_eq_command_iff {p : Prop} [Decidable p] {why : Illegal} {d : Decoded} {i : Instr} :
    (if p then .illegal why else d) = .command i ↔ ¬ p ∧ d = .command i := by
  split_ifs with hp
  · simp [hp]
  · simp [hp]

/-- The checks of 30_encoding.md R82 as `decode` makes them. -/
theorem decode_eq_command_iff_checks (w : Word) (i : Instr) :
    decode w = .command i ↔
      commandOf (field w 3 0) (field w 31 16) (field w 12 8) = some i ∧
      (field w 7 4 = 0 ∧ field w 15 13 = 0 ∧ field w 63 32 = 0) ∧
      (opHasCode (field w 3 0) = false → field w 12 8 = 0) ∧ (opHasCh (field w 3 0) = false → field w 31 16 = 0) := by
  unfold decode
  dsimp only
  split
  next hnone => simp [hnone]
  next j hsome =>
    rw [hsome]
    simp only [check_eq_command_iff, Decoded.command.injEq, Option.some.injEq]
    tauto

/-- A command is that of its own opcode and fields (30_encoding.md R81). -/
theorem commandOf_opcode (i : Instr) : commandOf (opcode i) (chField i) (codeField i) = some i := by cases i <;> rfl

/-- The command of an opcode has that opcode, and each field that the opcode has. -/
theorem fields_of_commandOf {op ch code : Nat} {i : Instr} (h : commandOf op ch code = some i) :
    op = opcode i ∧ chField i = (if opHasCh op then ch else 0) ∧ codeField i = (if opHasCode op then code else 0) := by
  unfold commandOf at h
  split at h
  case h_11 => cases h
  all_goals
    obtain rfl := Option.some.inj h
    exact ⟨rfl, rfl, rfl⟩

/-- A command without the field CODE, or CH, has the number 0 there. -/
theorem codeField_eq_zero {i : Instr} (h : opHasCode (opcode i) = false) : codeField i = 0 := by
  cases i with
  | decode ch code => cases h
  | _ => rfl

theorem chField_eq_zero {i : Instr} (h : opHasCh (opcode i) = false) : chField i = 0 := by
  cases i with
  | reset ch => cases h
  | decode ch code => cases h
  | decodeNext ch => cases h
  | _ => rfl

/-- A word decodes to a command exactly when its fields are the command's and the rest is 0. -/
theorem decode_eq_command_iff (w : Word) (i : Instr) :
    decode w = .command i ↔
      field w 3 0 = opcode i ∧ field w 7 4 = 0 ∧ field w 12 8 = codeField i ∧ field w 15 13 = 0 ∧
      field w 31 16 = chField i ∧ field w 63 32 = 0 := by
  rw [decode_eq_command_iff_checks]
  constructor
  · rintro ⟨hcommand, ⟨hz0, hz1, hz2⟩, hcode, hch⟩
    obtain ⟨hop, hchi, hcodei⟩ := fields_of_commandOf hcommand
    refine ⟨hop, hz0, ?_, hz1, ?_, hz2⟩
    · rw [hcodei]
      split_ifs with hhas
      · rfl
      · exact hcode (Bool.eq_false_iff.mpr hhas)
    · rw [hchi]
      split_ifs with hhas
      · rfl
      · exact hch (Bool.eq_false_iff.mpr hhas)
  · rintro ⟨hop, hz0, hcode, hz1, hch, hz2⟩
    rw [hop, hcode, hch]
    exact ⟨commandOf_opcode i, ⟨hz0, hz1, hz2⟩, codeField_eq_zero, chField_eq_zero⟩

/-! ### Encoding -/

theorem encode_fields (i : Instr) : EncodedFields.Statement i := by
  cases i with
  | openStream => exact EncodedFields.openStream
  | total => exact EncodedFields.total
  | addrOf => exact EncodedFields.addrOf
  | indexOf => exact EncodedFields.indexOf
  | byteRange => exact EncodedFields.byteRange
  | reset ch => exact EncodedFields.reset ch
  | decode ch code => exact EncodedFields.decode ch code
  | unpackInit => exact EncodedFields.unpackInit
  | nextCode => exact EncodedFields.nextCode
  | decodeNext ch => exact EncodedFields.decodeNext ch

theorem decode_encode {i : Instr} (h : i.WellFormed) : decode (encode i) = .command i :=
  (decode_eq_command_iff _ _).mpr (encode_fields i h)

/-- The fields CH and CODE of a word are narrow enough for its command to be well formed. -/
theorem wellFormed_of_fields_lt {i : Instr} (hch : chField i < 2 ^ 16) (hcode : codeField i < 2 ^ 5) :
    i.WellFormed := by
  cases i with
  | reset ch => exact hch
  | decode ch code => exact ⟨hch, hcode⟩
  | decodeNext ch => exact hch
  | _ => trivial

theorem wellFormed_of_decode {w : Word} {i : Instr} (h : decode w = .command i) : i.WellFormed := by
  obtain ⟨-, -, hcode, -, hch, -⟩ := (decode_eq_command_iff w i).mp h
  exact wellFormed_of_fields_lt (hch ▸ field_lt w 31 16) (hcode ▸ field_lt w 12 8)

theorem encode_of_decode {w : Word} {i : Instr} (h : decode w = .command i) : encode i = w := by
  obtain ⟨hop, hz0, hcode, hz1, hch, hz2⟩ := (decode_eq_command_iff w i).mp h
  obtain ⟨eop, ez0, ecode, ez1, ech, ez2⟩ := encode_fields i (wellFormed_of_decode h)
  exact word_eq_iff_fields.mpr ⟨eop.trans hop.symm, ez0.trans hz0.symm, ecode.trans hcode.symm, ez1.trans hz1.symm,
    ech.trans hch.symm, ez2.trans hz2.symm⟩

/-! ### The checks and the masks of R82 -/

/-- The checks (1) to (4) of 30_encoding.md R82, on the fields of the word. -/
def FieldsLegal (w : Word) : Prop :=
  1 ≤ field w 3 0 ∧ field w 3 0 ≤ 10 ∧ field w 7 4 = 0 ∧ field w 15 13 = 0 ∧ field w 63 32 = 0 ∧
  (field w 3 0 ≠ 7 → field w 12 8 = 0) ∧ (field w 3 0 ≠ 6 → field w 3 0 ≠ 7 → field w 3 0 ≠ 10 → field w 31 16 = 0)

theorem fieldsLegal_of_decode {w : Word} {i : Instr} (h : decode w = .command i) : FieldsLegal w := by
  obtain ⟨hop, hz0, hcode, hz1, hch, hz2⟩ := (decode_eq_command_iff w i).mp h
  rw [FieldsLegal, hop, hcode, hch]
  cases i <;> simp [opcode, codeField, chField, hz0, hz1, hz2]

/-- A word that passes the checks decodes to the command of its opcode and fields (30_encoding.md R81). -/
theorem decode_of_fieldsLegal {w : Word} {op : Nat} {i : Instr} (h : FieldsLegal w) (hop : field w 3 0 = op)
    (hi : commandOf op (field w 31 16) (field w 12 8) = some i) : decode w = .command i := by
  obtain ⟨-, -, hz0, hz1, hz2, hcode, hch⟩ := h
  refine (decode_eq_command_iff_checks w i).mpr ⟨hop ▸ hi, ⟨hz0, hz1, hz2⟩, fun hhas => hcode ?_, fun hhas => ?_⟩
  · simpa [opHasCode] using hhas
  · simp only [opHasCh, Bool.or_eq_false_iff, beq_eq_false_iff_ne, and_assoc] at hhas
    obtain ⟨h6, h7, h10⟩ := hhas
    exact hch h6 h7 h10

theorem exists_illegal_of_not_fieldsLegal {w : Word} (h : ¬ FieldsLegal w) : ∃ why, decode w = .illegal why := by
  cases hdec : decode w with
  | command i => exact absurd (fieldsLegal_of_decode hdec) h
  | illegal why => exact ⟨why, rfl⟩

/-- The mask of a command without operands keeps the whole word. -/
theorem and_wholeMask_eq_iff (w : Word) {i : Instr} (h : i.WellFormed) :
    w &&& 0xFFFFFFFFFFFFFFFF = encode i ↔ decode w = .command i := by
  have hmask : w &&& 0xFFFFFFFFFFFFFFFF = w := BitVec.and_allOnes
  rw [hmask]
  exact ⟨fun hw => hw ▸ decode_encode h, fun hdec => (encode_of_decode hdec).symm⟩

/-- Where a mask holds ones it keeps the word's field. -/
theorem field_and_of_ones {mask : Word} {hi lo : Nat} (h : field mask hi lo = 2 ^ (hi + 1 - lo) - 1) (w : Word) :
    field (w &&& mask) hi lo = field w hi lo := by
  rw [field_and, h, Nat.and_two_pow_sub_one_eq_mod, Nat.mod_eq_of_lt (field_lt w hi lo)]

/-- Where a mask holds zeros it drops the word's field. -/
theorem field_and_of_zeros {mask : Word} {hi lo : Nat} (h : field mask hi lo = 0) (w : Word) :
    field (w &&& mask) hi lo = 0 := by
  rw [field_and, h, Nat.and_zero]

/-- The fields of a word that holds an opcode and nothing else. -/
theorem opcodeWord_fields {op : Nat} (h : op < 2 ^ 4) :
    let w := BitVec.ofNat 64 op
    field w 3 0 = op ∧ field w 7 4 = 0 ∧ field w 12 8 = 0 ∧ field w 15 13 = 0 ∧ field w 31 16 = 0 ∧ field w 63 32 = 0 :=
  word_fields (code := 0) (ch := 0) h (by decide) (by decide)

/-- The mask of a command with the operand CH drops CH. -/
theorem and_chMask_eq_iff (w : Word) {op : Nat} (h : op < 2 ^ 4) :
    w &&& 0xFFFFFFFF0000FFFF = BitVec.ofNat 64 op ↔
      field w 3 0 = op ∧ field w 7 4 = 0 ∧ field w 12 8 = 0 ∧ field w 15 13 = 0 ∧ field w 63 32 = 0 := by
  obtain ⟨hop, hz0, hcode, hz1, hch, hz2⟩ := opcodeWord_fields h
  rw [word_eq_iff_fields, hop, hz0, hcode, hz1, hch, hz2, field_and_of_ones rfl, field_and_of_ones rfl,
    field_and_of_ones rfl, field_and_of_ones rfl, field_and_of_zeros rfl, field_and_of_ones rfl]
  simp

/-- The mask of DECODE drops CH and CODE. -/
theorem and_chCodeMask_eq_iff (w : Word) {op : Nat} (h : op < 2 ^ 4) :
    w &&& 0xFFFFFFFF0000E0FF = BitVec.ofNat 64 op ↔
      field w 3 0 = op ∧ field w 7 4 = 0 ∧ field w 15 13 = 0 ∧ field w 63 32 = 0 := by
  obtain ⟨hop, hz0, hcode, hz1, hch, hz2⟩ := opcodeWord_fields h
  rw [word_eq_iff_fields, hop, hz0, hcode, hz1, hch, hz2, field_and_of_ones rfl, field_and_of_ones rfl,
    field_and_of_zeros rfl, field_and_of_ones rfl, field_and_of_zeros rfl, field_and_of_ones rfl]
  simp

end Sys2Proof.Laws
end

section
/-! NEXT_CODE, DECODE and DECODE_NEXT: what one that succeeds did, and the check of CODE against 2^B. -/

namespace Sys2Proof.Machine

theorem FailsWith.err_ne_ok {a : Answer} {s t : State} {es : List ErrCode} (h : FailsWith a s es)
    (hes : ErrCode.ok ∉ es) (ha : a = .next t) : t.status.err ≠ .ok :=
  fun hok => hes (hok ▸ (h.of_next ha).1)

/-- NEXT_CODE that succeeds: its checks passed and it made its writes. -/
theorem exec_nextCode_ok {s t : State} (h : exec .nextCode s = .next t) (herr : t.status.err = .ok) :
    s.status.opened = true ∧ s.cursor.toNat + s.width ≤ 8 * s.bufLen.toNat ∧
      t = ((s.setCursor (s.cursor.toNat + s.width)).setRes0 (word (s.codeAt s.cursor.toNat s.width))).succeed := by
  rcases execNextCode_cases s with hfail | ⟨hopen, hlen, heq⟩
  · exact absurd herr (hfail.err_ne_ok (by decide) h)
  · exact ⟨hopen, hlen, (finish_next _ t).mp (heq.symm.trans h)⟩

/-- DECODE that succeeds: its checks passed and it made its writes. -/
theorem exec_decode_ok {s t : State} {c i : Nat} (h : exec (.decode c i) s = .next t) (herr : t.status.err = .ok) :
    c < s.channels ∧ s.isReady c = true ∧ t = (s.decodeOn c i).succeed := by
  rcases execDecode_cases c i s with hfail | ⟨-, hc, -, hready, heq⟩
  · exact absurd herr (hfail.err_ne_ok (by decide) h)
  · exact ⟨hc, hready, (finish_next _ t).mp (heq.symm.trans h)⟩

/-- DECODE of a code that B bits cannot hold fails (30_encoding.md R82, 43_decoder.md R182). -/
theorem exec_decode_wideCode {s : State} {c i : Nat} (hopen : s.status.opened = true) (hc : c < s.channels)
    (hi : 2 ^ s.width ≤ i) : exec (.decode c i) s = .next (s.fail .illegalCommand) := by
  have herr : Claims.firstError s (.decode c i) = .illegalCommand := by
    simp [Claims.firstError, hopen, hi, Nat.not_le.mpr hc]
  exact herr ▸ exec_of_firstError_ne_ok (herr ▸ nofun)

/-- DECODE_NEXT whose checks pass makes its writes. -/
theorem exec_decodeNext_of_checks {s : State} {c : Nat} (hopen : s.status.opened = true) (hc : c < s.channels)
    (hready : s.isReady c = true) (hlen : s.cursor.toNat + s.width ≤ 8 * s.bufLen.toNat) :
    exec (.decodeNext c) s = finish (((s.setCursor (s.cursor.toNat + s.width)).decodeOn c
      (s.codeAt s.cursor.toNat s.width)).setRes1 (word (s.codeAt s.cursor.toNat s.width))) := by
  simp only [exec, execDecodeNext_eq, hopen, hready, Nat.not_le.mpr hc, Nat.not_lt.mpr hlen, Bool.true_eq_false,
    if_false]

/-- A code of the open stream fits RES0 (42_unpacker.md R142, R145). -/
theorem word_codeAt_toNat {s : State} (hfmt : s.FormatLegal) (hopen : s.status.opened = true) (j : Nat) :
    (word (s.codeAt j s.width)).toNat = s.codeAt j s.width := by
  have hwidth : s.width ≤ 64 := by
    obtain ⟨hmode, -⟩ := hfmt.1 hopen
    omega
  exact word_toNat_of_lt ((codeAt_lt j s.width s).trans_le (Nat.pow_le_pow_right (by decide) hwidth))

end Sys2Proof.Machine
end

section
/-! The statements about command words (30_encoding.md). -/

namespace Sys2Proof.Proofs

open Sys2Proof.Machine Sys2Proof.Claims Sys2Proof.Laws

/-- Settles O2: the word of a well-formed command has the fields that decode to it. -/
theorem decodeOfEncodeIsTheCommand : Obligations.DecodeOfEncodeIsTheCommand := fun _ h => decode_encode h

/-- Settles O3: a legal word and the word of its command have the same fields. -/
theorem encodeOfDecodeIsTheWord : Obligations.EncodeOfDecodeIsTheWord :=
  fun _ _ h => ⟨wellFormed_of_decode h, encode_of_decode h⟩

/-- Settles O4: the checks on the fields, the ten masks, and the check of CODE against 2^B. -/
theorem wordsDecodeByFieldChecksAndMasks : Obligations.WordsDecodeByFieldChecksAndMasks := by
  refine ⟨fun w => ?_, fun w => ?_, fun s c i => exec_decode_wideCode⟩
  · obtain ⟨hop, hz0, hcode, hz1, hch, hz2⟩ := fields_eq_div_mod w
    simp only [← hop, ← hz0, ← hcode, ← hz1, ← hch, ← hz2]
    refine ⟨exists_illegal_of_not_fieldsLegal, ?_, ?_, ?_, ?_, ?_, ?_, ?_, ?_, ?_, ?_⟩
    all_goals exact fun h hop => decode_of_fieldsLegal h hop rfl
  · refine ⟨and_wholeMask_eq_iff w (i := .openStream) trivial, and_wholeMask_eq_iff w (i := .total) trivial,
      and_wholeMask_eq_iff w (i := .addrOf) trivial, and_wholeMask_eq_iff w (i := .indexOf) trivial,
      and_wholeMask_eq_iff w (i := .byteRange) trivial, (and_chMask_eq_iff w (by decide)).trans ?_,
      (and_chCodeMask_eq_iff w (by decide)).trans ?_, and_wholeMask_eq_iff w (i := .unpackInit) trivial,
      and_wholeMask_eq_iff w (i := .nextCode) trivial, (and_chMask_eq_iff w (by decide)).trans ?_⟩
    all_goals simp [decode_eq_command_iff, opcode, codeField, chField]

/-- Settles O36: the code that NEXT_CODE leaves in RES0 is the code that DECODE_NEXT takes. -/
theorem decodeNextIsNextCodeThenDecode : Obligations.DecodeNextIsNextCodeThenDecode := by
  intro s t u c hfmt ht hterr hu huerr
  obtain ⟨hopen, hlen, rfl⟩ := exec_nextCode_ok ht hterr
  obtain ⟨hc, hready, rfl⟩ := exec_decode_ok hu huerr
  rw [exec_decodeNext_of_checks hopen hc hready hlen, State.succeed_res0, State.setRes0_res0,
    word_codeAt_toNat hfmt hopen]
  rfl

/-- Settles O1: one written-out word per command, and one with a bit of Z1 set. -/
theorem writtenOutWordsDecode : Obligations.WrittenOutWordsDecode := by
  unfold Obligations.WrittenOutWordsDecode
  decide

/-- Settles O5: the step on an illegal word is `fail` with IllegalCommand. -/
theorem illegalWordsChangeOnlyStatus : Obligations.IllegalWordsChangeOnlyStatus := by
  refine ⟨rfl, fun s w rest why hw hp hdec => ?_⟩
  rw [step_command hw hp]
  exact runWord_illegal hdec _

end Sys2Proof.Proofs
end

section
/-! How a command whose checks are known ends, who writes the format, and what commands leave unchanged. -/

namespace Sys2Proof.Machine

open Sys2Proof.Claims

/-! ### A command whose checks are known -/

/-- The first check that applies is the error reported, and nothing else changes. -/
theorem exec_fails {i : Instr} {s : State} {e : ErrCode} (h : firstError s i = e) (he : e ≠ .ok) :
    exec i s = .next (s.fail e) :=
  h ▸ exec_of_firstError_ne_ok (h ▸ he)

/-- A command that passes all its checks succeeds. -/
theorem exec_succeeds {i : Instr} {s : State} (h : firstError s i = .ok) :
    ∃ t, exec i s = .next t ∧ t.status.err = .ok :=
  h ▸ (exec_endsWith i s).exists_next

/-- TOTAL with a stream open makes its write (40_stream.md R102). -/
theorem exec_total_of_opened {s : State} (hopen : s.status.opened = true) :
    exec .total s = finish (s.setRes0Wide s.totalFrames) :=
  if_neg (by simp [hopen])

/-- INDEX_OF whose checks pass makes its writes (41_translator.md R123). -/
theorem exec_indexOf_of_checks {s : State} (hopen : s.status.opened = true) (hbit : s.argN1 ≤ 7)
    (hbyte : s.argN0 ≤ s.dataLen) (hwhole : (8 * s.argN0 + s.argN1) % s.width = 0) :
    exec .indexOf s = finish ((s.setRes0Wide ((8 * s.argN0 + s.argN1) / s.width / s.channels)).setRes1
      (word ((8 * s.argN0 + s.argN1) / s.width % s.channels))) := by
  simp only [exec, execIndexOf, hopen, hwhole, Nat.not_lt.mpr hbit, Nat.not_lt.mpr hbyte, Bool.true_eq_false, ne_eq,
    not_true_eq_false, if_false]

/-- UNPACK_INIT whose checks pass moves CURSOR (42_unpacker.md R143). -/
theorem exec_unpackInit_of_checks {s : State} (hbit : s.argN1 ≤ 7) (hbyte : s.argN0 ≤ s.params.bufBytes) :
    exec .unpackInit s = finish (s.setCursor (8 * s.argN0 + s.argN1)) :=
  if_neg (by omega)

/-! ### Who writes the format -/

/-- Only a successful OPEN writes the format registers (40_stream.md R101, R103). -/
theorem exec_fmt {i : Instr} {s t : State} (h : exec i s = .next t) :
    t.fmt = s.fmt ∨ (i = .openStream ∧ t.status.err = .ok ∧ t.fmt = s.argFormat) := by
  rcases exec_next_status h with ⟨e, -, -, rfl⟩ | ⟨herr, -, -, hkept | ⟨hi, hfmt⟩⟩
  · exact .inl rfl
  · exact .inl hkept
  · exact .inr ⟨hi, herr, hfmt⟩

/-- A step keeps the format, but for power-on and a successful OPEN. -/
theorem fmt_changed_by {s t : State} (h : step s = .next t) :
    t.fmt = s.fmt ∨ PowerOnNext s ∨
    ∃ w, CommandNext s w ∧ decode (BitVec.ofNat 64 w) = .command .openStream ∧ t.status.err = .ok ∧
      t.fmt = s.argFormat := by
  rcases step_next_cases h with ⟨-, rfl⟩ | ⟨rest, hp, -⟩ | ⟨w, rest, hw, hp, i, hdec, hexec⟩ |
    ⟨w, rest, -, -, -, rfl⟩ | ⟨v, rest, -, -, rfl⟩ | ⟨v, rest, -, -, rfl⟩ | ⟨rest, a0, a1, a2, a3, a4, rfl⟩ |
    ⟨rest, i, v, hi, rfl⟩ | ⟨rest, r, rfl⟩
  · exact .inl rfl
  · exact .inr (.inl ⟨rest, hp⟩)
  · rcases exec_fmt hexec with hkept | ⟨rfl, herr, hfmt⟩
    · exact .inl hkept
    · exact .inr (.inr ⟨w, ⟨hw, rest, hp⟩, hdec, herr, hfmt⟩)
  · exact .inl rfl
  · exact .inl rfl
  · rcases (s.afterInput rest).writeBufLen_cases (word v) with ⟨-, heq⟩ | ⟨-, heq⟩
    all_goals
      rw [heq]
      exact .inl rfl
  · exact .inl rfl
  · exact .inl rfl
  · exact .inl rfl

/-! ### What commands leave unchanged -/

/-- Every next state that a command answers has the property R: what a frame says of the command. -/
def Leaves (a : Answer) (R : State → Prop) : Prop := ∀ t, a = .next t → R t

namespace Leaves

variable {s u : State} {a : Answer} {R : State → Prop}

theorem finish (h : R u.succeed) : Leaves (Machine.finish u) R := by
  intro t ht
  obtain rfl := (finish_next u t).mp ht
  exact h

theorem check {p : Prop} [Decidable p] {e : ErrCode} (hfail : R (s.fail e)) (h : Leaves a R) :
    Leaves (if p then failWith e s else a) R := by
  split
  · intro t ht
    obtain rfl := (failWith_next e s t).mp ht
    exact hfail
  · exact h

end Leaves

/-- t is s but for RES0, RES1, the counter of free results, and STATUS.ERR and STICKY. -/
def OnlyResultsWritten (s t : State) : Prop :=
  ∃ e sticky r0 r1 k, t = { s with
    status := { s.status with err := e, sticky := sticky }, res0 := r0, res1 := r1, freeIndex := k }

/-- A state that differs from s in STATUS, results, format, CURSOR, decoder states and READY alone. -/
theorem operandsAndBufferKept_update {s : State} {status : Status} {r0 r1 cursor : Word} {fmt : Format}
    {decoders : List (Nat × DecoderState)} {ready : List Nat} {k : Nat} :
    OperandsAndBufferKept s { s with
      status := status, res0 := r0, res1 := r1, fmt := fmt, cursor := cursor, decoders := decoders, ready := ready,
      freeIndex := k } :=
  ⟨rfl, rfl, rfl, rfl, rfl, rfl, rfl, fun _ => rfl, rfl, rfl⟩

/-- The writes of DECODE_NEXT, for any code i. -/
theorem operandsAndBufferKept_decodeNext (c i j : Nat) (v : Word) (s : State) :
    OperandsAndBufferKept s (((s.setCursor j).decodeOn c i).setRes1 v).succeed := by
  simp [OperandsAndBufferKept, State.decodeOn_eq, State.bufRead]

theorem OnlyResultsWritten.operandsAndBufferKept {s t : State} (h : OnlyResultsWritten s t) :
    OperandsAndBufferKept s t := by
  obtain ⟨e, sticky, r0, r1, k, rfl⟩ := h
  exact operandsAndBufferKept_update

theorem onlyResultsWritten_fail (e : ErrCode) (s : State) : OnlyResultsWritten s (s.fail e) := ⟨_, _, _, _, _, rfl⟩

theorem onlyResultsWritten_setRes0Wide (n : Nat) (s : State) : OnlyResultsWritten s (s.setRes0Wide n).succeed := by
  obtain ⟨v, k, heq⟩ := s.setRes0Wide_eq n
  rw [heq]
  exact ⟨_, _, _, _, _, rfl⟩

theorem onlyResultsWritten_setRes0Wide_setRes1 (n : Nat) (v : Word) (s : State) :
    OnlyResultsWritten s ((s.setRes0Wide n).setRes1 v).succeed := by
  obtain ⟨r0, k, heq⟩ := s.setRes0Wide_eq n
  rw [heq]
  exact ⟨_, _, _, _, _, rfl⟩

/-- TOTAL and the translator's commands write results alone (40_stream.md R102, 41_translator.md R122 to R124). -/
theorem exec_translator_onlyResultsWritten {i : Instr}
    (hi : i = .total ∨ i = .addrOf ∨ i = .indexOf ∨ i = .byteRange) (s : State) :
    Leaves (exec i s) (OnlyResultsWritten s) := by
  have fails := fun e => onlyResultsWritten_fail e s
  rcases hi with rfl | rfl | rfl | rfl
  · exact .check (fails _) (.finish (onlyResultsWritten_setRes0Wide _ s))
  · exact .check (fails _) (.check (fails _) (.check (fails _) (.finish ⟨_, _, _, _, _, rfl⟩)))
  · exact .check (fails _) (.check (fails _) (.check (fails _) (.check (fails _)
      (.finish (onlyResultsWritten_setRes0Wide_setRes1 _ _ s)))))
  · exact .check (fails _) (.check (fails _) (.finish ⟨_, _, _, _, _, rfl⟩))

/-- No command writes an operand, a parameter, BUF, BUF_LEN or the host's side (10_state.md R26, R30). -/
theorem exec_operandsAndBufferKept (i : Instr) (s : State) : Leaves (exec i s) (OperandsAndBufferKept s) := by
  have fails := fun e => (onlyResultsWritten_fail e s).operandsAndBufferKept
  have translator {i : Instr} (hi : i = .total ∨ i = .addrOf ∨ i = .indexOf ∨ i = .byteRange) :
      Leaves (exec i s) (OperandsAndBufferKept s) :=
    fun t h => (exec_translator_onlyResultsWritten hi s t h).operandsAndBufferKept
  cases i with
  | openStream =>
    exact .check (fails _) (.check (fails _) (.check (fails _) (.check (fails _)
      (.finish operandsAndBufferKept_update))))
  | total => exact translator (.inl rfl)
  | addrOf => exact translator (.inr (.inl rfl))
  | indexOf => exact translator (.inr (.inr (.inl rfl)))
  | byteRange => exact translator (.inr (.inr (.inr rfl)))
  | reset c => exact .check (fails _) (.check (fails _) (.finish operandsAndBufferKept_update))
  | decode c k =>
    exact .check (fails _) (.check (fails _) (.check (fails _) (.check (fails _)
      (.finish operandsAndBufferKept_update))))
  | unpackInit => exact .check (fails _) (.finish operandsAndBufferKept_update)
  | nextCode =>
    simp only [exec, execNextCode_eq]
    exact .check (fails _) (.check (fails _) (.finish operandsAndBufferKept_update))
  | decodeNext c =>
    simp only [exec, execDecodeNext_eq]
    exact .check (fails _) (.check (fails _) (.check (fails _) (.check (fails _)
      (.finish (operandsAndBufferKept_decodeNext ..)))))

/-- TOTAL has no RES1 (40_stream.md R102). -/
theorem exec_total_res1 (s : State) : Leaves (exec .total s) (fun t => t.res1 = s.res1) :=
  .check rfl (.finish (State.setRes0Wide_res1 _ s))

end Sys2Proof.Machine
end

section
/-! The statements about the stream format commands (40_stream.md). -/

namespace Sys2Proof.Proofs

open Sys2Proof.Machine Sys2Proof.Claims

/-- Settles O22: of everything a step can do, only power-on and a successful OPEN write the format. -/
theorem onlyOpenWritesTheFormat : Obligations.OnlyOpenWritesTheFormat :=
  fun _ _ h _ hne => (fmt_changed_by h).resolve_left hne

/-- Settles O54: OPEN fails and changes STATUS alone, or writes the format, STATUS and READY. -/
theorem frameOfOpen : Obligations.FrameOfOpen := by
  intro s t h
  refine ⟨exec_operandsAndBufferKept _ s t h, ?_⟩
  rcases exec_openStream_cases h with ⟨-, heq⟩ | ⟨hok, rfl⟩
  · rw [heq]
    exact ⟨rfl, rfl, rfl, fun _ => rfl, fun _ => ⟨rfl, rfl, rfl⟩⟩
  · exact ⟨rfl, rfl, rfl, fun _ => rfl, fun hne => absurd hok hne⟩

/-- Settles O55: the four commands write results alone, and TOTAL no RES1. -/
theorem frameOfTranslatorCommands : Obligations.FrameOfTranslatorCommands := by
  intro i s t hi h
  have hkept := exec_operandsAndBufferKept i s t h
  have htotal : i = .total → t.res1 = s.res1 := by
    rintro rfl
    exact exec_total_res1 s t h
  obtain ⟨e, sticky, r0, r1, k, rfl⟩ := exec_translator_onlyResultsWritten hi s t h
  exact ⟨hkept, rfl, rfl, rfl, fun _ => ⟨rfl, rfl⟩, htotal⟩

/-- Settles O18: STATUS.OPEN is the first check of the eight commands, and UNPACK_INIT does not make it. -/
theorem commandsWithoutAStreamAreNotReady : Obligations.CommandsWithoutAStreamAreNotReady := by
  intro s hclosed
  have notReady {i : Instr} (h : firstError s i = .notReady) : exec i s = .next (failed .notReady s) :=
    exec_fails h nofun
  exact ⟨notReady (if_pos hclosed), notReady (if_pos hclosed), notReady (if_pos hclosed), notReady (if_pos hclosed),
    notReady (if_pos hclosed), fun c => notReady (if_pos hclosed), fun c i => notReady (if_pos hclosed),
    fun c => notReady (if_pos hclosed), exec_unpackInit_of_checks⟩

/-- Settles O19: the four checks in their order, and what is written where they pass. -/
theorem openChecksThenLatchesTheFormat : Obligations.OpenChecksThenLatchesTheFormat := by
  refine ⟨by decide, fun s => ⟨fun hmode => ?_, fun hmode hzero => ?_, fun hmode hc hr hcap => ?_,
    fun hmode hc hr hcap hpart => ?_, fun hmode hc hr hcap hwhole => ?_⟩⟩
  · exact exec_fails (if_pos hmode) nofun
  · exact exec_fails (by rw [firstError, if_neg (not_not.mpr hmode), if_pos hzero]) nofun
  · exact exec_fails (by rw [firstError, if_neg (not_not.mpr hmode), if_neg (not_or.mpr ⟨hc, hr⟩), if_pos hcap]) nofun
  · exact exec_fails (by rw [firstError, if_neg (not_not.mpr hmode), if_neg (not_or.mpr ⟨hc, hr⟩),
      if_neg (Nat.not_lt.mpr hcap), if_pos hpart]) nofun
  · have hok : firstError s .openStream = .ok := by
      rw [firstError, if_neg (not_not.mpr hmode), if_neg (not_or.mpr ⟨hc, hr⟩), if_neg (Nat.not_lt.mpr hcap),
        if_neg (not_not.mpr hwhole)]
    obtain ⟨t, ht, herr⟩ := exec_succeeds hok
    rcases exec_openStream_cases ht with ⟨hne, -⟩ | ⟨-, rfl⟩
    · exact absurd herr hne
    · exact ⟨_, ht, rfl, rfl, fun _ => rfl, rfl⟩

/-- Settles O20: the check of STATUS.OPEN, and the quotient where it fits RES0. -/
theorem totalIsTheFrameCount : Obligations.TotalIsTheFrameCount := by
  refine ⟨by decide, fun s => ⟨fun hclosed => exec_fails (if_pos hclosed) nofun, fun hopen hfits => ?_⟩⟩
  rw [exec_total_of_opened hopen, State.setRes0Wide_of_lt hfits]
  exact ⟨_, rfl, word_toNat_of_lt hfits, rfl⟩

/-- Settles O21: a wide result takes a free value, and RES1 of INDEX_OF is below C. -/
theorem resultsWiderThanARegisterComplete : Obligations.ResultsWiderThanARegisterComplete := by
  intro s hfmt hopen
  refine ⟨fun hwide => ?_, fun hbit hbyte hwhole hwide => ?_⟩
  · rw [exec_total_of_opened hopen, State.setRes0Wide_of_le hwide]
    exact ⟨_, rfl, rfl⟩
  · obtain ⟨-, hchannels, -⟩ := hfmt.1 hopen
    rw [exec_indexOf_of_checks hopen hbit hbyte hwhole, State.setRes0Wide_of_le hwide]
    exact ⟨_, rfl, word_toNat_of_lt ((Nat.mod_lt _ hchannels).trans s.fmt.ch.isLt), rfl⟩

end Sys2Proof.Proofs
end

section
/-! ADDR_OF, INDEX_OF and BYTE_RANGE: the bit address of a code and its way back, and the bits that a sample range
covers (41_translator.md). -/

namespace Sys2Proof.Machine

/-! ### The bit address of a code -/

/-- Every code begins a whole number of codes after the first one (41_translator.md R121). -/
theorem State.flatIndex_mod_width (s : State) (frame ch : Nat) : s.flatIndex frame ch % s.width = 0 :=
  Nat.mul_mod_left ..

theorem State.flatIndex_div_width {s : State} (hwidth : 0 < s.width) (frame ch : Nat) :
    s.flatIndex frame ch / s.width = frame * s.channels + ch :=
  Nat.mul_div_cancel _ hwidth

/-- The number of a code among all codes, divided by C, leaves its frame and its channel (41_translator.md R121). -/
theorem State.codeNumber_div_mod_channels {s : State} {ch : Nat} (hch : ch < s.channels) (frame : Nat) :
    (frame * s.channels + ch) / s.channels = frame ∧ (frame * s.channels + ch) % s.channels = ch :=
  (Nat.div_mod_unique (Nat.zero_lt_of_lt hch)).mpr ⟨by rw [Nat.add_comm, Nat.mul_comm], hch⟩

/-- A byte offset within the data fits RES0, and a bit offset fits RES1. -/
theorem word_bitAddress_toNat {s : State} {f : Nat} (hbyte : f / 8 ≤ s.dataLen) :
    (word (f / 8)).toNat = f / 8 ∧ (word (f % 8)).toNat = f % 8 :=
  ⟨word_toNat_of_lt (hbyte.trans_lt s.fmt.dlen.isLt), word_toNat_of_lt (by omega)⟩

/-- ADDR_OF whose checks pass makes its writes (41_translator.md R122). -/
theorem exec_addrOf_of_checks {s : State} (hopen : s.status.opened = true) (hch : s.argN1 < s.channels)
    (hbyte : s.flatIndex s.argN0 s.argN1 / 8 ≤ s.dataLen) :
    exec .addrOf s = finish ((s.setRes0 (word (s.flatIndex s.argN0 s.argN1 / 8))).setRes1
      (word (s.flatIndex s.argN0 s.argN1 % 8))) := by
  simp only [exec, execAddrOf, hopen, Nat.not_le.mpr hch, Nat.not_lt.mpr hbyte, Bool.true_eq_false, if_false]

/-- ADDR_OF that succeeds: its checks passed and it made its writes. -/
theorem exec_addrOf_ok {s t : State} (h : exec .addrOf s = .next t) (herr : t.status.err = .ok) :
    s.status.opened = true ∧ s.flatIndex s.argN0 s.argN1 / 8 ≤ s.dataLen ∧
      t = ((s.setRes0 (word (s.flatIndex s.argN0 s.argN1 / 8))).setRes1
        (word (s.flatIndex s.argN0 s.argN1 % 8))).succeed := by
  rcases execAddrOf_cases s with hfail | ⟨hopen, -, hbyte, heq⟩
  · exact absurd herr (hfail.err_ne_ok (by decide) h)
  · exact ⟨hopen, hbyte, (finish_next _ t).mp (heq.symm.trans h)⟩

/-- INDEX_OF at the first bit of a code of the data gives the code's frame and channel (41_translator.md R123). -/
theorem exec_indexOf_of_flatIndex {s : State} {frame ch : Nat} (hopen : s.status.opened = true)
    (hwidth : 0 < s.width) (hch : ch < s.channels) (hframe : frame < 2 ^ 64) (hbit : s.argN1 ≤ 7)
    (hbyte : s.argN0 ≤ s.dataLen) (haddr : 8 * s.argN0 + s.argN1 = s.flatIndex frame ch) :
    exec .indexOf s = finish ((s.setRes0 (word frame)).setRes1 (word ch)) := by
  obtain ⟨hdiv, hmod⟩ := State.codeNumber_div_mod_channels hch frame
  rw [exec_indexOf_of_checks hopen hbit hbyte (haddr ▸ s.flatIndex_mod_width frame ch), haddr,
    State.flatIndex_div_width hwidth, hdiv, hmod, State.setRes0Wide_of_lt hframe]

/-! ### The bits of a sample range -/

/-- A range of samples within TOTAL holds a bit, and all its bits lie in the data (41_translator.md R124). -/
theorem State.rangeBits_of_le_totalFrames {s : State} {a n : Nat} (hn : n ≠ 0) (htotal : a + n ≤ s.totalFrames) :
    a * s.channels * s.width < (a + n) * s.channels * s.width ∧
      (a + n) * s.channels * s.width ≤ 8 * s.dataLen := by
  have hframe : 0 < s.channels * s.width := by
    refine Nat.pos_of_ne_zero fun hzero => ?_
    have hnone : s.totalFrames = 0 := by rw [State.totalFrames, Nat.mul_comm s.width, hzero, Nat.div_zero]
    omega
  rw [Nat.mul_assoc, Nat.mul_assoc]
  refine ⟨Nat.mul_lt_mul_of_pos_right (by omega) hframe, ?_⟩
  rw [Nat.mul_comm s.channels]
  exact (Nat.mul_le_mul_right _ htotal).trans (Nat.div_mul_le_self ..)

/-- The first and the last byte of a range of bits within the data fit RES0 and RES1, and the last is below L. -/
theorem word_coveringBytes_toNat {s : State} {lo hi : Nat} (hlo : lo < hi) (hhi : hi ≤ 8 * s.dataLen) :
    (word (lo / 8)).toNat = lo / 8 ∧ (word ((hi - 1) / 8)).toNat = (hi - 1) / 8 ∧ (hi - 1) / 8 < s.dataLen := by
  have hlast : (hi - 1) / 8 < s.dataLen := by omega
  have hfirst : lo / 8 ≤ (hi - 1) / 8 := by omega
  have hfits := hlast.trans s.fmt.dlen.isLt
  exact ⟨word_toNat_of_lt (hfirst.trans_lt hfits), word_toNat_of_lt hfits, hlast⟩

/-- BYTE_RANGE whose checks pass makes its writes (41_translator.md R124). -/
theorem exec_byteRange_of_checks {s : State} (hopen : s.status.opened = true) (hn : s.argN1 ≠ 0)
    (htotal : s.argN0 + s.argN1 ≤ s.totalFrames) :
    exec .byteRange s = finish ((s.setRes0 (word (s.argN0 * s.channels * s.width / 8))).setRes1
      (word (((s.argN0 + s.argN1) * s.channels * s.width - 1) / 8))) := by
  simp only [exec, execByteRange, hopen, not_or.mpr ⟨hn, Nat.not_lt.mpr htotal⟩, Bool.true_eq_false, if_false]

/-- BYTE_RANGE that succeeds: its checks passed and it made its writes. -/
theorem exec_byteRange_ok {s t : State} (h : exec .byteRange s = .next t) (herr : t.status.err = .ok) :
    s.argN1 ≠ 0 ∧ s.argN0 + s.argN1 ≤ s.totalFrames ∧
      t = ((s.setRes0 (word (s.argN0 * s.channels * s.width / 8))).setRes1
        (word (((s.argN0 + s.argN1) * s.channels * s.width - 1) / 8))).succeed := by
  rcases execByteRange_cases s with hfail | ⟨-, hn, htotal, heq⟩
  · exact absurd herr (hfail.err_ne_ok (by decide) h)
  · exact ⟨hn, htotal, (finish_next _ t).mp (heq.symm.trans h)⟩

end Sys2Proof.Machine
end

section
/-! The statements about the address translator (41_translator.md). -/

namespace Sys2Proof.Proofs

open Sys2Proof.Machine Sys2Proof.Claims

/-- Settles O26: the byte and bit offset that ADDR_OF writes make up the address of the code's first bit again. -/
theorem addressRoundTrip : Obligations.AddressRoundTrip := by
  intro s t hfmt hch h herr
  obtain ⟨hopen, hbyte, rfl⟩ := exec_addrOf_ok h herr
  have hwidth : 0 < s.width := by
    obtain ⟨hmode, -⟩ := hfmt.1 hopen
    omega
  obtain ⟨hres0, hres1⟩ := word_bitAddress_toNat hbyte
  have hbit : (word (s.flatIndex s.argN0 s.argN1 % 8)).toNat ≤ 7 := by omega
  have haddr : 8 * (word (s.flatIndex s.argN0 s.argN1 / 8)).toNat + (word (s.flatIndex s.argN0 s.argN1 % 8)).toNat =
      s.flatIndex s.argN0 s.argN1 := by
    rw [hres0, hres1, Nat.div_add_mod]
  exact ⟨_, exec_indexOf_of_flatIndex hopen hwidth hch s.arg0.isLt hbit (hres0.trans_le hbyte) haddr, rfl,
    BitVec.eq_of_toNat_eq (word_toNat_of_lt s.arg0.isLt), BitVec.eq_of_toNat_eq (word_toNat_of_lt s.arg1.isLt)⟩

/-- Settles O27: the range holds a bit, so its first and its last bit lie in the first and the last byte. -/
theorem byteRangeIsMinimal : Obligations.ByteRangeIsMinimal := by
  intro s t _ h herr lo hi
  obtain ⟨hn, htotal, rfl⟩ := exec_byteRange_ok h herr
  obtain ⟨hlo, hhi⟩ := State.rangeBits_of_le_totalFrames hn htotal
  obtain ⟨hfirst, hlast, -⟩ := word_coveringBytes_toNat hlo hhi
  rw [State.succeed_res0, State.succeed_res1, State.setRes1_res0, State.setRes1_res1, State.setRes0_res0, hfirst, hlast]
  exact ⟨fun j hj hj' => ⟨Nat.div_le_div_right hj, Nat.div_le_div_right (Nat.le_sub_one_of_lt hj')⟩,
    ⟨lo, le_rfl, hlo, rfl⟩, ⟨hi - 1, Nat.le_sub_one_of_lt hlo, Nat.sub_one_lt_of_lt hlo, rfl⟩⟩

/-- Settles O23: the three checks in their order, and the address where they pass. -/
theorem addrOfGivesTheBitAddress : Obligations.AddrOfGivesTheBitAddress := by
  refine ⟨by decide, fun s => ⟨fun hclosed => exec_fails (if_pos hclosed) nofun, fun hopen hch => ?_,
    fun hopen hch hlong => ?_, fun hopen hch hbyte => ?_⟩⟩
  · exact exec_fails (by simp [firstError, hopen, hch]) nofun
  · exact exec_fails (by simp [firstError, hopen, hlong]) nofun
  · obtain ⟨hres0, hres1⟩ := word_bitAddress_toNat hbyte
    exact ⟨_, exec_addrOf_of_checks hopen hch hbyte, hres0, hres1, rfl⟩

/-- Settles O24: the four checks in their order, and the sample and channel where they pass. -/
theorem indexOfGivesSampleAndChannel : Obligations.IndexOfGivesSampleAndChannel := by
  refine ⟨by decide, fun s => ⟨fun hclosed => exec_fails (if_pos hclosed) nofun, fun hopen hbit => ?_,
    fun hopen hbit hbyte => ?_, fun hopen hbit hbyte hpart => ?_, fun hfmt hopen hbit hbyte hwhole hfits => ?_⟩⟩
  · exact exec_fails (by simp [firstError, hopen, hbit]) nofun
  · exact exec_fails (by simp [firstError, hopen, hbyte]) nofun
  · exact exec_fails (by simp [firstError, hopen, hpart]) nofun
  · obtain ⟨-, hchannels, -⟩ := hfmt.1 hopen
    rw [exec_indexOf_of_checks hopen hbit hbyte hwhole, State.setRes0Wide_of_lt hfits]
    exact ⟨_, rfl, word_toNat_of_lt hfits, word_toNat_of_lt ((Nat.mod_lt _ hchannels).trans s.fmt.ch.isLt), rfl⟩

/-- Settles O25: the two checks in their order, and the bytes of the range where they pass. -/
theorem byteRangeGivesTheCoveringBytes : Obligations.ByteRangeGivesTheCoveringBytes := by
  refine ⟨by decide, fun s => ⟨fun hclosed => exec_fails (if_pos hclosed) nofun, fun hopen hrange => ?_,
    fun hopen hn htotal => ?_⟩⟩
  · exact exec_fails (by rcases hrange with hrange | hrange <;> simp [firstError, hopen, hrange]) nofun
  · obtain ⟨hlo, hhi⟩ := State.rangeBits_of_le_totalFrames hn htotal
    obtain ⟨hfirst, hlast, hbelow⟩ := word_coveringBytes_toNat hlo hhi
    exact ⟨_, exec_byteRange_of_checks hopen hn htotal, hfirst, hlast, hlast.trans_lt hbelow, rfl⟩

end Sys2Proof.Proofs
end

section
/-! UNPACK_INIT and NEXT_CODE: what they write, the codes that NEXT_CODE takes one after the other, and the bits of a
code (42_unpacker.md). -/

namespace Sys2Proof.Machine

open Sys2Proof.Claims

/-! ### What the unpacker's commands write -/

/-- t is s but for CURSOR, RES0, and STATUS.ERR and STICKY. -/
def OnlyUnpackerWritten (s t : State) : Prop :=
  ∃ e sticky r0 cursor, t = { s with
    status := { s.status with err := e, sticky := sticky }, res0 := r0, cursor := cursor }

namespace OnlyUnpackerWritten

theorem refl (s : State) : OnlyUnpackerWritten s s := ⟨_, _, _, _, rfl⟩

theorem trans {s t u : State} (hst : OnlyUnpackerWritten s t) (htu : OnlyUnpackerWritten t u) :
    OnlyUnpackerWritten s u := by
  obtain ⟨_, _, _, _, rfl⟩ := hst
  obtain ⟨_, _, _, _, rfl⟩ := htu
  exact ⟨_, _, _, _, rfl⟩

theorem fail (e : ErrCode) (s : State) : OnlyUnpackerWritten s (s.fail e) := ⟨_, _, _, _, rfl⟩

theorem bufLen {s t : State} (h : OnlyUnpackerWritten s t) : t.bufLen = s.bufLen := by
  obtain ⟨_, _, _, _, rfl⟩ := h
  rfl

theorem width {s t : State} (h : OnlyUnpackerWritten s t) : t.width = s.width := by
  obtain ⟨_, _, _, _, rfl⟩ := h
  rfl

end OnlyUnpackerWritten

/-- UNPACK_INIT and NEXT_CODE write CURSOR, RES0, STATUS.ERR and STICKY alone (42_unpacker.md R143, R145). -/
theorem exec_unpacker_onlyUnpackerWritten {i : Instr} (hi : i = .unpackInit ∨ i = .nextCode) (s : State) :
    Leaves (exec i s) (OnlyUnpackerWritten s) := by
  have fails := fun e => OnlyUnpackerWritten.fail e s
  rcases hi with rfl | rfl
  · exact .check (fails _) (.finish ⟨_, _, _, _, rfl⟩)
  · simp only [exec, execNextCode_eq]
    exact .check (fails _) (.check (fails _) (.finish ⟨_, _, _, _, rfl⟩))

/-- UNPACK_INIT gives no result (42_unpacker.md R143). -/
theorem exec_unpackInit_res0 (s : State) : Leaves (exec .unpackInit s) (fun t => t.res0 = s.res0) :=
  .check rfl (.finish rfl)

/-- NEXT_CODE whose checks pass makes its writes (42_unpacker.md R145). -/
theorem exec_nextCode_of_checks {s : State} (hopen : s.status.opened = true)
    (hlen : s.cursor.toNat + s.width ≤ 8 * s.bufLen.toNat) :
    exec .nextCode s = finish ((s.setCursor (s.cursor.toNat + s.width)).setRes0
      (word (s.codeAt s.cursor.toNat s.width))) := by
  simp only [exec, execNextCode_eq, hopen, Nat.not_lt.mpr hlen, Bool.true_eq_false, if_false]

/-! ### Codes taken one after the other -/

/-- The number of valid bits of BUF fits CURSOR (10_state.md R29, R30). -/
theorem State.Inv.validBits_lt {s : State} (h : s.Inv) : 8 * s.bufLen.toNat < 2 ^ 64 := by
  obtain ⟨⟨-, -, -, hbytes⟩, -, -, ⟨-, -, hlen, -⟩, -⟩ := h
  omega

/-- NEXT_CODE that succeeds moves CURSOR by B (42_unpacker.md R144). -/
theorem exec_nextCode_cursor {s t : State} (hfits : 8 * s.bufLen.toNat < 2 ^ 64) (h : exec .nextCode s = .next t)
    (herr : t.status.err = .ok) : t.cursor.toNat = s.cursor.toNat + s.width := by
  obtain ⟨-, hlen, rfl⟩ := exec_nextCode_ok h herr
  exact word_toNat_of_lt (hlen.trans_lt hfits)

/-- n + 1 codes taken are one that is taken, then n more. -/
theorem afterCodes_succ {n : Nat} {s u : State} (h : afterCodes (n + 1) s = some u) :
    ∃ t, exec .nextCode s = .next t ∧ t.status.err = .ok ∧ afterCodes n t = some u := by
  unfold afterCodes at h
  split at h
  · split at h
    · exact ⟨_, ‹_›, ‹_›, h⟩
    · cases h
  · cases h
  · cases h

/-- n codes taken move CURSOR by n·B and keep the format and BUF. -/
theorem afterCodes_cursor {n : Nat} {s u : State} (hfits : 8 * s.bufLen.toNat < 2 ^ 64)
    (h : afterCodes n s = some u) :
    OnlyUnpackerWritten s u ∧ u.cursor.toNat = s.cursor.toNat + n * s.width := by
  induction n generalizing s with
  | zero =>
    obtain rfl : s = u := Option.some.inj h
    exact ⟨.refl s, by simp⟩
  | succ n ih =>
    obtain ⟨t, ht, herr, hrest⟩ := afterCodes_succ h
    have hcursor := exec_nextCode_cursor hfits ht herr
    have hst := exec_unpacker_onlyUnpackerWritten (.inr rfl) s t ht
    obtain ⟨htu, hmoved⟩ := ih (hst.bufLen ▸ hfits) hrest
    refine ⟨hst.trans htu, ?_⟩
    rw [hmoved, hcursor, hst.width, Nat.succ_mul, Nat.add_comm (n * s.width), Nat.add_assoc]

/-- The n-th code after the first one of frame f, with the bits before BUF left out (41_translator.md R121). -/
theorem interleavedCode_address {base f n c b j : Nat} (h : j + base = f * c * b) :
    ((f + n / c) * c + n % c) * b - base = j + n * b := by
  have hnumber : (f + n / c) * c + n % c = f * c + n := by
    rw [Nat.add_mul, Nat.add_assoc, Nat.mul_comm (n / c), Nat.div_add_mod]
  rw [hnumber, Nat.add_mul, ← h]
  omega

/-! ### The bits of a code -/

/-- Under LSB_FIRST the t-th of b stream bits is the bit of weight 2^t of the sum that makes up the code. -/
theorem testBit_sum_mul_bitWeight_lsbFirst {b t : Nat} (bit : Nat → Bool) (ht : t < b) :
    ((List.range b).map fun k => (bit k).toNat * bitWeight .lsbFirst b k).sum.testBit t = bit t := by
  induction b with
  | zero => omega
  | succ b ih =>
    have hrest := sum_mul_bitWeight_lt .lsbFirst b (fun k => (bit k).toNat) fun k => Bool.toNat_le _
    have hsum : ((List.range (b + 1)).map fun k => (bit k).toNat * bitWeight .lsbFirst (b + 1) k).sum =
        2 ^ b * (bit b).toNat + ((List.range b).map fun k => (bit k).toNat * bitWeight .lsbFirst b k).sum := by
      simp only [List.sum_range_succ, bitWeight, Nat.mul_comm (2 ^ b), Nat.add_comm]
    rw [hsum, Nat.testBit_two_pow_mul_add _ hrest]
    split_ifs with hlt
    · exact ih hlt
    · obtain rfl : t = b := by omega
      cases bit t <;> simp

/-- A code under MSB_FIRST is the code under LSB_FIRST of its stream bits in the opposite order. -/
theorem sum_mul_bitWeight_reflect (b : Nat) (bit : Nat → Nat) :
    ((List.range b).map fun k => bit k * bitWeight .msbFirst b k).sum =
      ((List.range b).map fun k => bit (b - 1 - k) * bitWeight .lsbFirst b k).sum := by
  calc ((List.range b).map fun k => bit k * bitWeight .msbFirst b k).sum
      = ((List.range b).map fun k => bit (b - 1 - (b - 1 - k)) * 2 ^ (b - 1 - k)).sum := by
        congr 1
        refine List.map_congr_left fun k hk => ?_
        rw [Nat.sub_sub_self (Nat.le_sub_one_of_lt (List.mem_range.mp hk))]
        rfl
    _ = _ := Finset.sum_range_reflect (fun k => bit (b - 1 - k) * 2 ^ k) b

/-- Under MSB_FIRST the t-th of b stream bits is the bit of weight 2^(b - 1 - t). -/
theorem testBit_sum_mul_bitWeight_msbFirst {b t : Nat} (bit : Nat → Bool) (ht : t < b) :
    ((List.range b).map fun k => (bit k).toNat * bitWeight .msbFirst b k).sum.testBit (b - 1 - t) = bit t := by
  have hbit := testBit_sum_mul_bitWeight_lsbFirst (fun k => bit (b - 1 - k)) (show b - 1 - t < b by omega)
  rw [sum_mul_bitWeight_reflect b fun k => (bit k).toNat, hbit, Nat.sub_sub_self (Nat.le_sub_one_of_lt ht)]

/-- Under MSB_FIRST the t-th stream bit of a code is its bit b - 1 - t (42_unpacker.md R142). -/
theorem codeAt_testBit_msbFirst {s : State} (horder : s.params.bitOrder = .msbFirst) {b t : Nat} (ht : t < b)
    (j : Nat) :
    (s.codeAt j b).testBit (b - 1 - t) = (s.bufRead ((j + t) / 8)).getLsbD (7 - (j + t) % 8) := by
  simp only [State.codeAt, State.streamBit, bitPlace, horder]
  exact testBit_sum_mul_bitWeight_msbFirst (fun k => (s.bufRead ((j + k) / 8)).getLsbD (7 - (j + k) % 8)) ht

/-- Under LSB_FIRST the t-th stream bit of a code is its bit t (42_unpacker.md R142). -/
theorem codeAt_testBit_lsbFirst {s : State} (horder : s.params.bitOrder = .lsbFirst) {b t : Nat} (ht : t < b)
    (j : Nat) : (s.codeAt j b).testBit t = (s.bufRead ((j + t) / 8)).getLsbD ((j + t) % 8) := by
  simp only [State.codeAt, State.streamBit, bitPlace, horder]
  exact testBit_sum_mul_bitWeight_lsbFirst (fun k => (s.bufRead ((j + k) / 8)).getLsbD ((j + k) % 8)) ht

/-- A code of at most nine bits lies in two neighbouring bytes. -/
theorem codeAt_congr_twoBytes {s u : State} {j b : Nat} (hb : b ≤ 9)
    (horder : u.params.bitOrder = s.params.bitOrder) (hfirst : u.bufRead (j / 8) = s.bufRead (j / 8))
    (hsecond : u.bufRead (j / 8 + 1) = s.bufRead (j / 8 + 1)) : u.codeAt j b = s.codeAt j b := by
  refine codeAt_congr horder fun k hk => ?_
  rcases (by omega : (j + k) / 8 = j / 8 ∨ (j + k) / 8 = j / 8 + 1) with hbyte | hbyte
  · rw [hbyte, hfirst]
  · rw [hbyte, hsecond]

end Sys2Proof.Machine
end

section
/-! The statements about the unpacker (42_unpacker.md). -/

namespace Sys2Proof.Proofs

open Sys2Proof.Machine Sys2Proof.Claims

/-- Settles O30: the bits of a sum of distinct powers of 2, and the bytes that hold a code. -/
theorem codesAreAssembledInStreamOrder : Obligations.CodesAreAssembledInStreamOrder :=
  fun s j b => ⟨fun horder _ ht => codeAt_testBit_msbFirst horder ht j,
    fun horder _ ht => codeAt_testBit_lsbFirst horder ht j, codeAt_lt j b s,
    fun hb _ => codeAt_congr_twoBytes (by omega)⟩

/-- Settles O32: each code taken moves CURSOR by B, so the n-th one is n codes behind the first one of frame f. -/
theorem codesFollowTheChannelInterleave : Obligations.CodesFollowTheChannelInterleave := by
  intro s u v base f n hinv hopen hstart hcodes hnext herr
  obtain ⟨hsu, hcursor⟩ := afterCodes_cursor hinv.validBits_lt hcodes
  obtain ⟨-, -, rfl⟩ := exec_nextCode_ok hnext herr
  rw [interleavedCode_address hstart, ← hcursor]
  obtain ⟨_, _, _, _, rfl⟩ := hsu
  obtain ⟨-, -, hfmt, -, -⟩ := hinv
  exact word_codeAt_toNat hfmt hopen _

/-- Settles O56: the two commands write CURSOR, RES0 and STATUS alone, and UNPACK_INIT no RES0. -/
theorem frameOfUnpackerCommands : Obligations.FrameOfUnpackerCommands := by
  intro i s t hi h
  have hkept := exec_operandsAndBufferKept i s t h
  have hres0 : i = .unpackInit → t.res0 = s.res0 := by
    rintro rfl
    exact exec_unpackInit_res0 s t h
  obtain ⟨_, _, _, _, rfl⟩ := exec_unpacker_onlyUnpackerWritten hi s t h
  exact ⟨hkept, rfl, rfl, rfl, fun _ => ⟨rfl, rfl⟩, hres0⟩

/-- Settles O28: the check of the two offsets, and the flat bit index, which CURSOR holds. -/
theorem unpackInitSetsTheCursor : Obligations.UnpackInitSetsTheCursor := by
  refine ⟨by decide, fun s => ⟨fun hbad => if_pos hbad, fun hparams hbit hbyte => ?_⟩⟩
  obtain ⟨-, -, -, hbytes⟩ := hparams
  refine ⟨_, exec_unpackInit_of_checks hbit hbyte, ?_, rfl⟩
  exact word_toNat_of_lt ((Nat.add_le_add (Nat.mul_le_mul_left 8 hbyte) hbit).trans_lt hbytes)

/-- Settles O29: the two checks in their order, and the code and the moved CURSOR, which their registers hold. -/
theorem nextCodeTakesTheCodeAtTheCursor : Obligations.NextCodeTakesTheCodeAtTheCursor := by
  refine ⟨by decide, fun s => ⟨fun hclosed => exec_fails (if_pos hclosed) nofun, fun hopen hshort => ?_,
    fun hinv hopen hlen => ?_⟩⟩
  · exact exec_fails (by simp [firstError, hopen, hshort]) nofun
  · have hfits := hinv.validBits_lt
    obtain ⟨-, -, hfmt, -, -⟩ := hinv
    exact ⟨_, exec_nextCode_of_checks hopen hlen, word_codeAt_toNat hfmt hopen _,
      word_toNat_of_lt (hlen.trans_lt hfits), rfl⟩

end Sys2Proof.Proofs
end

section
/-! RESET, DECODE and DECODE_NEXT: their words, what one whose checks pass does, and what each writes
(43_decoder.md R161, R182, R183, R187). -/

namespace Sys2Proof.Machine

open Sys2Proof.Claims

/-! ### A command whose checks pass -/

/-- RESET whose checks pass makes its writes (43_decoder.md R161). -/
theorem exec_reset_of_checks {s : State} {c : Nat} (hopen : s.status.opened = true) (hc : c < s.channels) :
    exec (.reset c) s = finish ((s.setDecoder c DecoderState.reset).markReady c) := by
  simp only [exec, execReset, hopen, Nat.not_le.mpr hc, Bool.true_eq_false, if_false]

/-- DECODE whose checks pass makes its writes (43_decoder.md R182). -/
theorem exec_decode_of_checks {s : State} {c i : Nat} (hopen : s.status.opened = true) (hc : c < s.channels)
    (hi : i < 2 ^ s.width) (hready : s.isReady c = true) : exec (.decode c i) s = finish (s.decodeOn c i) := by
  simp only [exec, execDecode, hopen, hready, Nat.not_le.mpr hc, Nat.not_le.mpr hi, Bool.true_eq_false, if_false]

/-! ### One step of a channel's decoder -/

@[simp] theorem State.decoder_decodeOn_same (c i : Nat) (s : State) :
    (s.decodeOn c i).decoder c = (decodeStep s.params.g726 s.params.pcmShift (s.decoder c) i s.width).1 :=
  State.decoder_setDecoder_same c _ s

@[simp] theorem State.decodeOn_res0 (c i : Nat) (s : State) :
    (s.decodeOn c i).res0 =
      sext64 (decodeStep s.params.g726 s.params.pcmShift (s.decoder c) i s.width).2 := rfl

/-! ### What the commands write -/

/-- RESET writes no other channel (43_decoder.md R161). -/
theorem otherChannelsKept_reset (c : Nat) (d : DecoderState) (s : State) :
    OtherChannelsKept c s ((s.setDecoder c d).markReady c).succeed :=
  fun _ hk => ⟨State.decoder_setDecoder_other hk d s, State.isReady_markReady_other hk s⟩

/-- DECODE writes no other channel (43_decoder.md R187). -/
theorem otherChannelsKept_decodeOn (c i : Nat) (s : State) : OtherChannelsKept c s (s.decodeOn c i).succeed :=
  fun _ hk => ⟨State.decoder_setDecoder_other hk _ s, rfl⟩

/-- DECODE_NEXT writes the decoder states, RES0, RES1, CURSOR and STATUS.ERR alone, for any code i. -/
theorem decodeNext_writes (c i j : Nat) (v : Word) (s : State) {t : State}
    (ht : t = (((s.setCursor j).decodeOn c i).setRes1 v).succeed) :
    t = { s with
      decoders := t.decoders, res0 := t.res0, res1 := t.res1, cursor := t.cursor, status := okStatus s } := by
  rw [State.decodeOn_eq] at ht
  generalize decodeStep _ _ _ _ _ = r at ht
  subst ht
  -- Nested updates of a state that is still a variable take `rfl` seconds to compare.
  cases s
  rfl

/-- DECODE_NEXT writes no other channel (43_decoder.md R187). -/
theorem otherChannelsKept_decodeNext (c i j : Nat) (v : Word) (s : State) :
    OtherChannelsKept c s (((s.setCursor j).decodeOn c i).setRes1 v).succeed :=
  otherChannelsKept_decodeOn c i (s.setCursor j)

/-- Every other channel, the format and STATUS.OPEN are as they were. -/
def OnlyChannelWritten (c : Nat) (s t : State) : Prop :=
  t.fmt = s.fmt ∧ t.status.opened = s.status.opened ∧ OtherChannelsKept c s t

theorem onlyChannelWritten_decodeNext (c i j : Nat) (v : Word) (s : State) :
    OnlyChannelWritten c s (((s.setCursor j).decodeOn c i).setRes1 v).succeed := by
  refine ⟨?_, ?_, otherChannelsKept_decodeNext c i j v s⟩
  · rw [decodeNext_writes c i j v s rfl]
  · rw [decodeNext_writes c i j v s rfl]

theorem OnlyChannelWritten.fail (c : Nat) (e : ErrCode) (s : State) : OnlyChannelWritten c s (s.fail e) :=
  ⟨rfl, rfl, fun _ _ => ⟨rfl, rfl⟩⟩

/-- The commands of a channel write no other one (43_decoder.md R187). -/
theorem exec_decoder_onlyChannelWritten {c k : Nat} {i : Instr}
    (hi : i = .reset c ∨ i = .decode c k ∨ i = .decodeNext c) (s : State) :
    Leaves (exec i s) (OnlyChannelWritten c s) := by
  have fails := fun e => OnlyChannelWritten.fail c e s
  rcases hi with rfl | rfl | rfl
  · exact .check (fails _) (.check (fails _) (.finish ⟨rfl, rfl, otherChannelsKept_reset c _ s⟩))
  · exact .check (fails _) (.check (fails _) (.check (fails _) (.check (fails _)
      (.finish ⟨rfl, rfl, otherChannelsKept_decodeOn c k s⟩))))
  · simp only [exec, execDecodeNext_eq]
    exact .check (fails _) (.check (fails _) (.check (fails _) (.check (fails _)
      (.finish (onlyChannelWritten_decodeNext ..)))))

/-- RESET gives no result and does not move CURSOR (43_decoder.md R161). -/
theorem exec_reset_results (c : Nat) (s : State) :
    Leaves (exec (.reset c) s) (fun t => t.res0 = s.res0 ∧ t.res1 = s.res1 ∧ t.cursor = s.cursor) :=
  .check ⟨rfl, rfl, rfl⟩ (.check ⟨rfl, rfl, rfl⟩ (.finish ⟨rfl, rfl, rfl⟩))

/-- DECODE gives no RES1, and writes neither CURSOR nor READY (43_decoder.md R182). -/
theorem exec_decode_kept (c k : Nat) (s : State) :
    Leaves (exec (.decode c k) s) (fun t => t.res1 = s.res1 ∧ t.cursor = s.cursor ∧ t.ready = s.ready) :=
  .check ⟨rfl, rfl, rfl⟩ (.check ⟨rfl, rfl, rfl⟩ (.check ⟨rfl, rfl, rfl⟩ (.check ⟨rfl, rfl, rfl⟩
    (.finish ⟨rfl, rfl, rfl⟩))))

/-- DECODE_NEXT does not write READY (43_decoder.md R183). -/
theorem exec_decodeNext_ready (c : Nat) (s : State) :
    Leaves (exec (.decodeNext c) s) (fun t => t.ready = s.ready) := by
  simp only [exec, execDecodeNext_eq]
  refine .check rfl (.check rfl (.check rfl (.check rfl (.finish ?_))))
  rw [decodeNext_writes _ _ _ _ s rfl]

/-! ### Who writes a channel's state -/

/-- A command on the very channel c writes its state; every other command keeps it. -/
theorem exec_decoder {i : Instr} {s t : State} (h : exec i s = .next t) (c : Nat) :
    t.decoder c = s.decoder c ∨ i = .reset c ∨ (∃ k, i = .decode c k) ∨ i = .decodeNext c := by
  have translator (hi : i = .total ∨ i = .addrOf ∨ i = .indexOf ∨ i = .byteRange) :
      t.decoder c = s.decoder c := by
    obtain ⟨_, _, _, _, _, rfl⟩ := exec_translator_onlyResultsWritten hi s t h
    rfl
  have unpacker (hi : i = .unpackInit ∨ i = .nextCode) : t.decoder c = s.decoder c := by
    obtain ⟨_, _, _, _, rfl⟩ := exec_unpacker_onlyUnpackerWritten hi s t h
    rfl
  have channel {a k : Nat} (hi : i = .reset a ∨ i = .decode a k ∨ i = .decodeNext a) (hca : c ≠ a) :
      t.decoder c = s.decoder c := by
    obtain ⟨-, -, hother⟩ := exec_decoder_onlyChannelWritten hi s t h
    exact (hother c hca).1
  cases i with
  | openStream =>
    rcases exec_openStream_cases h with ⟨-, heq⟩ | ⟨-, rfl⟩
    · exact .inl (by rw [heq]; rfl)
    · exact .inl rfl
  | total => exact .inl (translator (.inl rfl))
  | addrOf => exact .inl (translator (.inr (.inl rfl)))
  | indexOf => exact .inl (translator (.inr (.inr (.inl rfl))))
  | byteRange => exact .inl (translator (.inr (.inr (.inr rfl))))
  | unpackInit => exact .inl (unpacker (.inl rfl))
  | nextCode => exact .inl (unpacker (.inr rfl))
  | reset a =>
    by_cases hca : c = a
    · exact .inr (.inl (hca ▸ rfl))
    · exact .inl (channel (k := 0) (.inl rfl) hca)
  | decode a k =>
    by_cases hca : c = a
    · exact .inr (.inr (.inl ⟨k, hca ▸ rfl⟩))
    · exact .inl (channel (.inr (.inl rfl)) hca)
  | decodeNext a =>
    by_cases hca : c = a
    · exact .inr (.inr (.inr (hca ▸ rfl)))
    · exact .inl (channel (k := 0) (.inr (.inr rfl)) hca)

/-- A step keeps a channel's state, but for power-on and a command on that channel. -/
theorem decoder_changed_by {s t : State} (h : step s = .next t) (c : Nat) :
    t.decoder c = s.decoder c ∨ PowerOnNext s ∨
    ∃ w, CommandNext s w ∧
      (decode (BitVec.ofNat 64 w) = .command (.reset c) ∨
       (∃ i, decode (BitVec.ofNat 64 w) = .command (.decode c i)) ∨
       decode (BitVec.ofNat 64 w) = .command (.decodeNext c)) := by
  rcases step_next_cases h with ⟨-, rfl⟩ | ⟨rest, hp, -⟩ | ⟨w, rest, hw, hp, i, hdec, hexec⟩ |
    ⟨w, rest, -, -, -, rfl⟩ | ⟨v, rest, -, -, rfl⟩ | ⟨v, rest, -, -, rfl⟩ | ⟨rest, a0, a1, a2, a3, a4, rfl⟩ |
    ⟨rest, i, v, hi, rfl⟩ | ⟨rest, r, rfl⟩
  · exact .inl rfl
  · exact .inr (.inl ⟨rest, hp⟩)
  · rcases exec_decoder hexec c with hkept | rfl | ⟨k, rfl⟩ | rfl
    · exact .inl hkept
    · exact .inr (.inr ⟨w, ⟨hw, rest, hp⟩, .inl hdec⟩)
    · exact .inr (.inr ⟨w, ⟨hw, rest, hp⟩, .inr (.inl ⟨k, hdec⟩)⟩)
    · exact .inr (.inr ⟨w, ⟨hw, rest, hp⟩, .inr (.inr hdec)⟩)
  · exact .inl rfl
  · exact .inl rfl
  · rcases (s.afterInput rest).writeBufLen_cases (word v) with ⟨-, heq⟩ | ⟨-, heq⟩
    all_goals
      rw [heq]
      exact .inl rfl
  · exact .inl rfl
  · exact .inl rfl
  · exact .inl rfl

end Sys2Proof.Machine
end

section
/-! The values of one decoder step: float words and products, the scale factor and the difference, and what each field
of the next state holds (43_decoder.md R164 to R181). -/

namespace Sys2Proof.Machine

/-! ### Float words and products -/

/-- The six leading bits of a positive magnitude (43_decoder.md R164). -/
theorem leadingSixBits_range {mag : Nat} (h : mag ≠ 0) :
    32 ≤ mag <<< 6 >>> bitlen mag ∧ mag <<< 6 >>> bitlen mag ≤ 63 := by
  obtain ⟨hlo, hhi⟩ := bitlen_spec h
  rw [Nat.shiftLeft_eq, Nat.shiftRight_eq_div_pow, Nat.le_div_iff_mul_le (by positivity),
    Nat.div_le_iff_le_mul_add_pred (by positivity)]
  cases hlen : bitlen mag with
  | zero =>
    rw [hlen] at hhi
    omega
  | succ k =>
    rw [hlen, Nat.add_sub_cancel] at hlo
    rw [hlen] at hhi
    omega

theorem toFloat_zero (s : Bool) : toFloat s 0 = { s := s, e := 0, m := 32 } := rfl

/-- The exponent of a 15-bit magnitude is its bit length. -/
theorem toFloat_e {mag : Nat} (h : mag ≤ 32767) (s : Bool) : (toFloat s mag).e.toNat = bitlen mag := by
  have hlen : bitlen mag ≤ 15 := bitlen_le (by omega)
  exact Nat.mod_eq_of_lt (by omega)

/-- The mantissa of a positive magnitude is its six leading bits. -/
theorem toFloat_m {mag : Nat} (h : mag ≠ 0) (s : Bool) : (toFloat s mag).m.toNat = mag <<< 6 >>> bitlen mag := by
  have hrange := leadingSixBits_range h
  simp only [toFloat, if_neg h, BitVec.toNat_ofNat]
  exact Nat.mod_eq_of_lt (by omega)

/-- The magnitude of a product has 15 bits: where the sum of the exponents is small the mantissas' product, which is at
most 251, is shifted left by 7 at most, and otherwise the product is masked (43_decoder.md R165). -/
theorem productMagnitude_lt (amag : Nat) (f : Float11) : productMagnitude amag f < 2 ^ 15 := by
  have ham : (if amag = 0 then 32 else amag <<< 6 >>> bitlen amag) ≤ 63 := by
    split_ifs with h0
    · decide
    · exact (leadingSixBits_range h0).2
  unfold productMagnitude
  dsimp only
  generalize (if amag = 0 then 32 else amag <<< 6 >>> bitlen amag) = am at ham
  split_ifs
  · have hmul : am * f.m.toNat ≤ 63 * 63 := Nat.mul_le_mul ham (Nat.le_of_lt_succ f.m.isLt)
    refine (Nat.shiftRight_le _ _).trans_lt ?_
    rw [Nat.shiftLeft_eq, Nat.shiftRight_eq_div_pow]
    omega
  · exact Nat.mod_lt _ (Nat.two_pow_pos 15)

theorem fmult_of_signs_differ {an : Int} {f : Float11} (h : xor (decide (an < 0)) f.s = true) :
    fmult an f = -(productMagnitude (coefMagnitude an) f : Int) := if_pos h

theorem fmult_of_signs_agree {an : Int} {f : Float11} (h : xor (decide (an < 0)) f.s = false) :
    fmult an f = productMagnitude (coefMagnitude an) f := if_neg (by simp [h])

theorem fmult_natAbs (an : Int) (f : Float11) : (fmult an f).natAbs = productMagnitude (coefMagnitude an) f := by
  cases h : xor (decide (an < 0)) f.s with
  | true => rw [fmult_of_signs_differ h, Int.natAbs_neg, Int.natAbs_natCast]
  | false => rw [fmult_of_signs_agree h, Int.natAbs_natCast]

/-! ### The difference and the sample -/

/-- DQL stays below 15·128, so DEX is at most 14 (43_decoder.md R168). -/
theorem logDifference_lt {t : Tables} {b i : Nat} {y : Int} (ht : tblDqln t b i ≤ 566) (hy : y ≤ 5120) :
    logDifference t b i y < 1920 := by
  simp only [logDifference, asr_eq_div]
  omega

theorem antilog_of_neg {dql : Int} (h : dql < 0) : antilog dql = 0 := if_pos h

/-- The difference's magnitude has 15 bits (43_decoder.md R168). -/
theorem antilog_lt (dql : Int) : antilog dql < 2 ^ 15 := by
  unfold antilog
  split_ifs
  · decide
  · refine (Nat.shiftRight_le _ _).trans_lt ?_
    rw [Nat.shiftLeft_eq]
    omega

theorem clamp_of_lt {x lo hi : Int} (h : lo ≤ hi) (hx : x < lo) : clamp x lo hi = lo := by
  unfold clamp; omega

theorem clamp_of_gt {x lo hi : Int} (hx : hi < x) : clamp x lo hi = hi := by
  unfold clamp; omega

/-- R12's clamp with the bounds the other way round. -/
theorem clamp_eq_max_min {x lo hi : Int} (h : lo ≤ hi) : clamp x lo hi = max lo (min hi x) := by
  unfold clamp; omega

/-- With the transcription the next state is computed from the values of R163 to R171, the sample not among them. -/
theorem decodeStep_next {q : G726} (h : q.datapath = .transcription) (sh : Nat) (d : DecoderState) (i b : Nat) :
    (decodeStep q sh d i b).1 = nextDecoder q.tables d i b (signals q.tables d i b) := by
  rw [decodeStep_transcription h]

/-- With the transcription the sample is SR scaled and clipped (43_decoder.md R170). -/
theorem decodeStep_sample {q : G726} (h : q.datapath = .transcription) (sh : Nat) (d : DecoderState) (i b : Nat) :
    (decodeStep q sh d i b).2 = clamp ((signals q.tables d i b).sr * 2 ^ sh) (-32768) 32767 := by
  rw [decodeStep_transcription h]
  rfl

/-! ### What the next state holds -/

/-- A value in a range that its unsigned field holds is stored unchanged. -/
theorem toNat_ofInt_eq {n : Nat} {x lo hi : Int} (h : lo ≤ x ∧ x ≤ hi) (hlo : 0 ≤ lo)
    (hhi : hi < ((2 ^ n : Nat) : Int)) : ((BitVec.ofInt n x).toNat : Int) = x :=
  toNat_ofInt_of_range ⟨hlo.trans h.1, h.2.trans_lt hhi⟩

section
variable {t : Tables} {d : DecoderState} {i b : Nat} {g : Signals}

theorem nextDecoder_yu : ((nextDecoder t d i b g).yu.toNat : Int) = nextYu t b i g.y :=
  toNat_ofInt_eq (nextYu_range t b i g.y) (by decide) (by decide)

theorem nextDecoder_yl (hd : d.Legal) :
    ((nextDecoder t d i b g).yl.toNat : Int) = nextYl d.yl.toNat (nextYu t b i g.y) := by
  obtain ⟨-, hyl, -⟩ := hd
  exact toNat_ofInt_eq (nextYl_range (by omega) (nextYu_range t b i g.y)) (by decide) (by decide)

theorem nextDecoder_dms (hd : d.Legal) (hf : 0 ≤ tblF t b i ∧ tblF t b i ≤ 7) :
    ((nextDecoder t d i b g).dms.toNat : Int) = nextDms t b i d.dms.toNat := by
  obtain ⟨-, -, -, hdms, -⟩ := hd
  exact toNat_ofInt_eq (nextDms_range hf (by omega)) (by decide) (by decide)

theorem nextDecoder_dml (hd : d.Legal) (hf : 0 ≤ tblF t b i ∧ tblF t b i ≤ 7) :
    ((nextDecoder t d i b g).dml.toNat : Int) = nextDml t b i d.dml.toNat := by
  obtain ⟨-, -, -, -, hdml, -⟩ := hd
  exact toNat_ofInt_eq (nextDml_range hf (by omega)) (by decide) (by decide)

theorem nextDecoder_ap (hd : d.Legal) :
    ((nextDecoder t d i b g).ap.toNat : Int) = nextAp d.ap.toNat g.tr
      (speedRises g.y (nextTd d g) (nextDms t b i d.dms.toNat) (nextDml t b i d.dml.toNat)) := by
  obtain ⟨-, -, hap, -⟩ := hd
  exact toNat_ofInt_eq (nextAp_range (by omega) _ _) (by decide) (by decide)

theorem nextDecoder_td : (nextDecoder t d i b g).td = nextTd d g := rfl

theorem nextDecoder_a2 (hd : d.Legal) : (nextDecoder t d i b g).a2.toInt = nextA2 d g := by
  obtain ⟨-, -, -, -, -, -, ha2, -⟩ := hd
  have ha2' := nextA2_range ha2 g
  exact toInt_ofInt16_of_range ⟨by omega, by omega⟩

theorem nextDecoder_a1 (hd : d.Legal) : (nextDecoder t d i b g).a1.toInt = nextA1 d g := by
  obtain ⟨-, -, -, -, -, -, ha2, -⟩ := hd
  have ha1' := nextA1_range ha2 g
  exact toInt_ofInt16_of_range ⟨by omega, by omega⟩

/-- A coefficient of the zero section is stored unchanged, since it is wrapped to 16 bits (43_decoder.md R177). -/
theorem nextB_stored (b : Nat) (g : Signals) (bi : BitVec 16) (dqi : Float11) :
    (BitVec.ofInt 16 (nextB b g bi dqi)).toInt = nextB b g bi dqi := by
  refine toInt_ofInt16_of_range ?_
  unfold nextB
  split_ifs
  · decide
  all_goals exact wrap16_range _

end

/-! ### Transitions -/

/-- A transition needs TD and a difference above the threshold (43_decoder.md R171). -/
theorem signals_tr_iff (t : Tables) (d : DecoderState) (i b : Nat) :
    (signals t d i b).tr = true ↔
      d.td = true ∧ transitionThreshold d.yl.toNat < antilog (logDifference t b i (scaleFactor d)) := by
  simp [signals]

section
variable {d : DecoderState} {g : Signals} (htr : g.tr = true)
include htr

theorem nextA2_of_transition : nextA2 d g = 0 := if_pos htr

theorem nextA1_of_transition : nextA1 d g = 0 := if_pos htr

theorem nextB_of_transition (b : Nat) (bi : BitVec 16) (dqi : Float11) : nextB b g bi dqi = 0 := if_pos htr

theorem nextTd_of_transition : nextTd d g = false := by simp [nextTd, htr]

/-- A transition sets AP' to 256 (43_decoder.md R181). -/
theorem nextDecoder_ap_of_transition (t : Tables) (hd : d.Legal) (i b : Nat) :
    (nextDecoder t d i b g).ap.toNat = 256 := by
  have hap := nextDecoder_ap (t := t) (i := i) (b := b) (g := g) hd
  rw [nextAp, if_pos htr] at hap
  exact Int.ofNat_inj.mp hap

end

/-! ### The next state without a transition -/

theorem nextAp_rising (ap : Int) : nextAp ap false true = ap + (512 - ap) / 16 := rfl

theorem nextAp_falling (ap : Int) : nextAp ap false false = ap + (-ap) / 16 := rfl

/-- The three reasons for the speed control to rise (43_decoder.md R181). -/
theorem speedRises_iff (y : Int) (td : Bool) (dms dml : Int) :
    speedRises y td dms dml = true ↔ y < 1536 ∨ td = true ∨ dml / 8 ≤ ((4 * dms - dml).natAbs : Int) := by
  simp [speedRises, asr_eq_div, or_assoc]

section
variable {d : DecoderState} {g : Signals} (htr : g.tr = false)
include htr

theorem nextTd_iff_of_no_transition : nextTd d g = true ↔ nextA2 d g < -11776 := by simp [nextTd, htr]

/-- The second pole coefficient leaks alone where the partial estimate is zero (43_decoder.md R175). -/
theorem nextA2_of_dqsez_eq_zero (h : g.dqsez = 0) : nextA2 d g = d.a2.toInt - d.a2.toInt / 128 := by
  simp [nextA2, Signals.sigpk, htr, h, asr_eq_div]

/-- Otherwise it also moves by the signs (43_decoder.md R175). -/
theorem nextA2_of_dqsez_ne_zero (h : g.dqsez ≠ 0) :
    nextA2 d g = max (-12288) (min 12288 (d.a2.toInt - d.a2.toInt / 128 +
      max (-256) (min 255 ((if xor g.pk0 d.pk1 = true then d.a1.toInt else -d.a1.toInt) / 32)) +
      (if xor g.pk0 d.pk2 = true then -128 else 128))) := by
  simp [nextA2, Signals.sigpk, htr, h, asr_eq_div, clamp_eq_max_min]

/-- The first pole coefficient leaks alone where the partial estimate is zero (43_decoder.md R176). -/
theorem nextA1_of_dqsez_eq_zero (h : g.dqsez = 0) :
    nextA1 d g = clamp (d.a1.toInt - d.a1.toInt / 256) (-(15360 - nextA2 d g)) (15360 - nextA2 d g) := by
  simp [nextA1, Signals.sigpk, htr, h, asr_eq_div]

/-- Otherwise it also moves by the signs (43_decoder.md R176). -/
theorem nextA1_of_dqsez_ne_zero (h : g.dqsez ≠ 0) :
    nextA1 d g = clamp (d.a1.toInt - d.a1.toInt / 256 + (if xor g.pk0 d.pk1 = true then -192 else 192))
      (-(15360 - nextA2 d g)) (15360 - nextA2 d g) := by
  simp [nextA1, Signals.sigpk, htr, h, asr_eq_div]

/-- A coefficient of the zero section leaks and, where there is a difference, moves by the signs (43_decoder.md R177). -/
theorem nextB_of_no_transition (b : Nat) (bi : BitVec 16) (dqi : Float11) :
    nextB b g bi dqi = wrap16 (bi.toInt - bi.toInt / (if b = 5 then 512 else 256) +
      (if g.dqmag = 0 then 0 else if xor g.ds dqi.s = true then -128 else 128)) := by
  have hleak : (2 : Int) ^ leakShift b = if b = 5 then 512 else 256 := by
    unfold leakShift
    split_ifs <;> rfl
  simp only [nextB, htr, Bool.false_eq_true, if_false, asr_eq_div, hleak]
  by_cases hmag : g.dqmag = 0
  · simp only [if_pos hmag, add_zero]
  · simp only [if_neg hmag]

end

/-! ### The histories -/

theorem floatSignal_of_nonneg {sr : Int} (h : 0 ≤ sr) : floatSignal sr = toFloat false sr.toNat :=
  if_neg (Int.not_lt.mpr h)

/-- A negative signal keeps its 15-bit magnitude. -/
theorem floatSignal_of_neg {sr : Int} (h : sr < 0) (hlo : -32768 < sr) :
    floatSignal sr = toFloat true (-sr).toNat := by
  rw [floatSignal, if_pos h, Nat.mod_eq_of_lt (by omega)]

theorem floatSignal_lowest : floatSignal (-32768) = toFloat true 0 := rfl

/-! ### Idle codes -/

/-- Where the two scale factors agree, as in the RESET state, Y is their common value whatever AP is
(43_decoder.md R167). -/
theorem scaleFactor_reset (ap : BitVec 10) : scaleFactor { DecoderState.reset with ap := ap } = 544 := by
  unfold scaleFactor
  split_ifs
  · rfl
  · simp [DecoderState.reset, asr_eq_div]

/-- What a step computes from the code 0 in the RESET state. -/
def Signals.idle : Signals :=
  { ds := false, sez := 0, se := 0, y := 544, dqmag := 0, sr := 0, dqsez := 0, tr := false }

theorem signals_reset {b : Nat} (hb : b = 3 ∨ b = 4 ∨ b = 5) (ap : BitVec 10) :
    signals G726.transcription.tables { DecoderState.reset with ap := ap } 0 b = Signals.idle := by
  have hap : signals G726.transcription.tables { DecoderState.reset with ap := ap } 0 b =
      signals G726.transcription.tables DecoderState.reset 0 b := by
    simp only [signals, scaleFactor_reset ap, show scaleFactor DecoderState.reset = 544 from scaleFactor_reset 0]
    rfl
  rw [hap]
  rcases hb with rfl | rfl | rfl <;> decide

/-- Of the next state only AP' reads AP, but for what Y says of it (43_decoder.md R172 to R181). -/
theorem nextDecoder_with_ap (t : Tables) (d : DecoderState) (ap : BitVec 10) (i b : Nat) (g : Signals) :
    ∃ ap', nextDecoder t { d with ap := ap } i b g = { nextDecoder t d i b g with ap := ap' } := ⟨_, rfl⟩

theorem nextDecoder_reset {b : Nat} (hb : b = 3 ∨ b = 4 ∨ b = 5) (ap : BitVec 10) :
    ∃ ap', nextDecoder G726.transcription.tables { DecoderState.reset with ap := ap } 0 b Signals.idle =
      { DecoderState.reset with ap := ap' } := by
  have hrest : { nextDecoder G726.transcription.tables DecoderState.reset 0 b Signals.idle with ap := 0 } =
      DecoderState.reset := by
    rcases hb with rfl | rfl | rfl <;> decide
  obtain ⟨ap', hap⟩ := nextDecoder_with_ap G726.transcription.tables DecoderState.reset ap 0 b Signals.idle
  exact ⟨ap', hap.trans (congrArg (fun d => { d with ap := ap' }) hrest)⟩

/-- One step on the code 0 gives a zero sample and leaves the RESET state but for AP. -/
theorem decodeStep_idle {b : Nat} (hb : b = 3 ∨ b = 4 ∨ b = 5) (sh : Nat) (ap : BitVec 10) :
    ∃ ap', decodeStep G726.transcription sh { DecoderState.reset with ap := ap } 0 b =
      ({ DecoderState.reset with ap := ap' }, 0) := by
  obtain ⟨ap', hnext⟩ := nextDecoder_reset hb ap
  have hsample : outputSample sh Signals.idle.sr = 0 := by simp [outputSample, Signals.idle, clamp]
  exact ⟨ap', by rw [decodeStep_transcription rfl, signals_reset hb, hnext, hsample]⟩

/-- A stream of code 0, from the RESET state with any AP. -/
theorem decodeRun_idle {b : Nat} (hb : b = 3 ∨ b = 4 ∨ b = 5) (sh n : Nat) (ap : BitVec 10) :
    (decodeRun G726.transcription sh b (List.replicate n 0) { DecoderState.reset with ap := ap }).1 =
      List.replicate n 0 ∧
    ∃ ap', (decodeRun G726.transcription sh b (List.replicate n 0) { DecoderState.reset with ap := ap }).2 =
      { DecoderState.reset with ap := ap' } := by
  induction n generalizing ap with
  | zero => exact ⟨rfl, ap, rfl⟩
  | succ n ih =>
    obtain ⟨ap', hstep⟩ := decodeStep_idle hb sh ap
    obtain ⟨hsamples, hstate⟩ := ih ap'
    simp only [List.replicate_succ, decodeRun, hstep, hsamples]
    exact ⟨trivial, hstate⟩

end Sys2Proof.Machine
end

section
/-! The statements about the decoder (43_decoder.md). -/

namespace Sys2Proof.Proofs

open Sys2Proof.Machine Sys2Proof.Claims Sys2Proof.Laws

/-! ### The commands -/

/-- Settles O37: the same checks decide, and one that passes runs the same DecodeStep. -/
theorem decodeDependsOnItsChannelAlone : Obligations.DecodeDependsOnItsChannelAlone := by
  intro s u t c i hg726 hshift hopen hfmt hready hdecoder h
  have hsame : firstError u (.decode c i) = firstError s (.decode c i) := by
    simp only [firstError, hopen, hfmt, hready]
  have herr := exec_err_eq_firstError h
  by_cases hok : firstError s (.decode c i) = .ok
  · obtain ⟨v, hv, hverr⟩ := exec_succeeds (hsame.trans hok)
    obtain ⟨-, -, rfl⟩ := exec_decode_ok h (herr.trans hok)
    obtain ⟨-, -, rfl⟩ := exec_decode_ok hv hverr
    refine ⟨_, hv, rfl, fun _ => ?_, ?_⟩
    · simp only [State.succeed_res0, State.decodeOn_res0, hg726, hshift, hdecoder, State.width, hfmt]
    · change (u.decodeOn c i).decoder c = (s.decodeOn c i).decoder c
      simp only [State.decoder_decodeOn_same, hg726, hshift, hdecoder, State.width, hfmt]
  · rw [exec_of_firstError_ne_ok hok] at h
    injection h with h
    subst h
    exact ⟨_, exec_fails hsame hok, rfl, fun herr => absurd herr hok, hdecoder⟩

/-- Settles O39: of everything a step can do, only power-on and a command on the channel write its state. -/
theorem decoderStatePersists : Obligations.DecoderStatePersists :=
  fun _ _ c h hne => (decoder_changed_by h c).resolve_left hne

/-- Settles O57: the three commands write one channel, and each the results its rule names. -/
theorem frameOfDecoderCommands : Obligations.FrameOfDecoderCommands := by
  intro c k i s t hi h
  obtain ⟨hfmt, hopen, hother⟩ := exec_decoder_onlyChannelWritten hi s t h
  refine ⟨exec_operandsAndBufferKept i s t h, hfmt, hopen, hother, ?_, ?_, fun hne => ?_⟩
  · rintro rfl
    exact exec_reset_results c s t h
  · rintro rfl
    obtain ⟨hres1, hcursor, -⟩ := exec_decode_kept c k s t h
    exact ⟨hres1, hcursor⟩
  · have hready : t.ready = s.ready := by
      rcases hi with rfl | rfl | rfl
      · exact absurd rfl hne
      · obtain ⟨-, -, hready⟩ := exec_decode_kept c k s t h
        exact hready
      · exact exec_decodeNext_ready c s t h
    rw [State.isReady, hready, State.isReady]

/-- Settles O33: the word, the two checks in their order, and the writes. -/
theorem resetPutsTheChannelInTheResetState : Obligations.ResetPutsTheChannelInTheResetState := by
  refine ⟨fun c hc => ?_, fun s c => ⟨fun hclosed => exec_fails (if_pos hclosed) nofun, fun hopen hc => ?_,
    fun hopen hc => ?_⟩⟩
  · simpa [encode, opcode, codeField, chField] using decode_encode (i := .reset c) hc
  · exact exec_fails (by simp [firstError, hopen, hc]) nofun
  · exact ⟨_, exec_reset_of_checks hopen hc, State.decoder_setDecoder_same c _ s,
      State.isReady_markReady_same c (s.setDecoder c _), otherChannelsKept_reset c _ s, rfl⟩

/-- Settles O34: the word, the four checks in their order, and one decoder step. -/
theorem decodeStepsTheChannel : Obligations.DecodeStepsTheChannel := by
  refine ⟨fun c i hc hi => decode_encode (i := .decode c i) ⟨hc, hi⟩, fun s c i =>
    ⟨fun hclosed => exec_fails (if_pos hclosed) nofun, fun hopen hc => ?_,
      fun hopen hc hi => exec_decode_wideCode hopen hc hi, fun hopen hc hi hready => ?_,
      fun hopen hc hi hready => ?_⟩⟩
  · exact exec_fails (by simp [firstError, hopen, hc]) nofun
  · exact exec_fails (by simp [firstError, hopen, hready, Nat.not_le.mpr hc, Nat.not_le.mpr hi]) nofun
  · exact ⟨_, exec_decode_of_checks hopen hc hi hready, State.decoder_decodeOn_same c i s, rfl,
      otherChannelsKept_decodeOn c i s, rfl⟩

/-- Settles O35: the word, the four checks in their order, and one decoder step on the code at CURSOR. -/
theorem decodeNextTakesAndDecodes : Obligations.DecodeNextTakesAndDecodes := by
  refine ⟨fun c hc => ?_, fun s c => ⟨fun hclosed => exec_fails (if_pos hclosed) nofun, fun hopen hc => ?_,
    fun hopen hc hready => ?_, fun hopen hc hready hshort => ?_, fun hinv hopen hc hready hlen => ?_⟩⟩
  · simpa [encode, opcode, codeField, chField] using decode_encode (i := .decodeNext c) hc
  · exact exec_fails (by simp [firstError, hopen, hc]) nofun
  · exact exec_fails (by simp [firstError, hopen, hready, Nat.not_le.mpr hc]) nofun
  · exact exec_fails (by simp [firstError, hopen, hready, hshort, Nat.not_le.mpr hc]) nofun
  · have hfits := hinv.validBits_lt
    obtain ⟨-, -, hfmt, -, -⟩ := hinv
    exact ⟨_, exec_decodeNext_of_checks hopen hc hready hlen,
      State.decoder_decodeOn_same c _ (s.setCursor (s.cursor.toNat + s.width)), rfl, word_codeAt_toNat hfmt hopen _,
      word_toNat_of_lt (hlen.trans_lt hfits), otherChannelsKept_decodeNext _ _ _ _ s,
      decodeNext_writes _ _ _ _ s rfl⟩

/-! ### The per-sample transition -/

/-- Settles O42: the exponent is the bit length, which four bits hold, and the mantissa the six leading bits. -/
theorem floatHoldsSixLeadingBits : Obligations.FloatHoldsSixLeadingBits := by
  intro sgn mag hmag
  refine ⟨rfl, fun h0 => ?_, fun h0 => ?_⟩
  · rw [h0, toFloat_zero]
    exact ⟨rfl, rfl⟩
  · obtain ⟨hlo, hhi⟩ := bitlen_spec h0
    rw [toFloat_e hmag, toFloat_m h0]
    exact ⟨hlo, hhi, by rw [Nat.shiftLeft_eq, Nat.shiftRight_eq_div_pow], leadingSixBits_range h0⟩

/-- Settles O43: the product's magnitude has 15 bits, and the signs decide its sign. -/
theorem productsFitSixteenBits : Obligations.ProductsFitSixteenBits := by
  intro an f
  refine ⟨?_, fun hdiffer => ?_, fun hagree => ?_⟩
  · rw [fmult_natAbs]
    exact productMagnitude_lt _ f
  · rw [fmult_of_signs_differ hdiffer]
    omega
  · rw [fmult_of_signs_agree hagree]
    omega

/-- Settles O44: Y lies between the two scale factors, which bounds DQL; −2048 outweighs every Y. -/
theorem scaleFactorAndMagnitudeRanges : Obligations.ScaleFactorAndMagnitudeRanges := by
  intro q d i b hq hd hb hi
  obtain ⟨-, hdqln, -⟩ := hq.entries hb hi
  obtain ⟨hyu, hyl, -⟩ := hd
  have hy : 544 ≤ scaleFactor d ∧ scaleFactor d ≤ 5120 := scaleFactor_range hyu hyl
  refine ⟨hy, logDifference_lt hdqln hy.2, antilog_lt _, fun hinf => antilog_of_neg ?_⟩
  simp only [logDifference, hinf, asr_eq_div]
  omega

/-- Settles O41: the clip in its three cases; the next state does not read it. -/
theorem sampleIsTheClippedSignal : Obligations.SampleIsTheClippedSignal := by
  refine ⟨rfl, fun q sh d i b hq => ?_⟩
  rw [decodeStep_sample hq]
  exact ⟨fun hhigh => clamp_of_gt hhigh, fun hlow => clamp_of_lt (by decide) hlow,
    fun hlo hhi => clamp_of_range ⟨hlo, hhi⟩, decodeStep_next hq sh d i b⟩

/-- Settles O45: what TR clears, and TD' from the stored A2' where TR is 0. -/
theorem transitionResetsPredictorAndSpeed : Obligations.TransitionResetsPredictorAndSpeed := by
  intro q sh d i b hq hd
  rw [decodeStep_next hq]
  refine ⟨fun htd hmag => ?_, fun hno => ?_⟩
  · have htr := (signals_tr_iff q.tables d i b).mpr ⟨htd, hmag⟩
    have hb := fun bi dqi => congrArg (BitVec.ofInt 16) (nextB_of_transition htr b bi dqi)
    exact ⟨congrArg (BitVec.ofInt 16) (nextA1_of_transition htr),
      congrArg (BitVec.ofInt 16) (nextA2_of_transition htr), hb _ _, hb _ _, hb _ _, hb _ _, hb _ _, hb _ _,
      nextTd_of_transition htr, nextDecoder_ap_of_transition htr q.tables hd i b⟩
  · have htr : (signals q.tables d i b).tr = false := by
      refine Bool.eq_false_iff.mpr fun htr => ?_
      obtain ⟨htd, hmag⟩ := (signals_tr_iff q.tables d i b).mp htr
      rcases hno with hoff | hle
      · simp [htd] at hoff
      · exact absurd hmag (Nat.not_lt.mpr hle)
    rw [nextDecoder_td, nextDecoder_a2 hd]
    exact nextTd_iff_of_no_transition htr

/-- Settles O46: the five values as their rules give them, each stored unchanged. -/
theorem scaleFactorsAveragesAndSpeedAreUpdated : Obligations.ScaleFactorsAveragesAndSpeedAreUpdated := by
  intro q sh d i b hq hd hb hi
  obtain ⟨-, -, -, -, hf⟩ := hq.entries hb hi
  rw [decodeStep_next hq.datapath]
  generalize signals q.tables d i b = g
  obtain ⟨-, ⟨hyl, hyl'⟩, -⟩ := nextDecoder_legal (b := b) (i := i) hf hd g
  have hreset := fun htr => nextDecoder_ap_of_transition (g := g) htr q.tables hd i b
  dsimp only
  rw [nextDecoder_ap hd, nextDecoder_td, nextDecoder_dms hd hf, nextDecoder_dml hd hf, nextDecoder_yl hd,
    nextDecoder_yu, ← speedRises_iff]
  refine ⟨clamp_eq_max_min (by decide), rfl, hyl, hyl', rfl, rfl, hreset, fun htr hrises => ?_, fun htr hfalls => ?_⟩
  · rw [htr, hrises, nextAp_rising]
  · rw [htr, Bool.eq_false_iff.mpr hfalls, nextAp_falling]

/-- Settles O47: the coefficients of R175 to R177 with TR = 0, each stored unchanged. -/
theorem coefficientsLeakAndAdapt : Obligations.CoefficientsLeakAndAdapt := by
  intro q sh d i b hq hd htr
  rw [decodeStep_next hq]
  revert htr
  generalize signals q.tables d i b = g
  intro htr
  dsimp only
  have ⟨_, _, _, _, _, _, ha2, _⟩ := hd
  have hbound : -(15360 - nextA2 d g) ≤ 15360 - nextA2 d g := by
    have := nextA2_range ha2 g
    omega
  rw [nextDecoder_a1 hd, nextDecoder_a2 hd]
  refine ⟨fun hzero => ⟨nextA2_of_dqsez_eq_zero htr hzero, ?_⟩,
    fun hne => ⟨nextA2_of_dqsez_ne_zero htr hne, ?_⟩, ?_⟩
  · rw [nextA1_of_dqsez_eq_zero htr hzero, clamp_eq_max_min hbound]
  · rw [nextA1_of_dqsez_ne_zero htr hne, clamp_eq_max_min hbound]
    rfl
  · have stored := fun bi dqi => (nextB_stored b g bi dqi).trans (nextB_of_no_transition htr b bi dqi)
    simp only [List.forall_mem_cons]
    exact ⟨stored _ _, stored _ _, stored _ _, stored _ _, stored _ _, stored _ _, nofun⟩

/-- Settles O48: the histories' fields, and the magnitude of SR that FLOAT takes. -/
theorem historiesMoveDown : Obligations.HistoriesMoveDown := by
  intro q sh d i b hq
  rw [decodeStep_next hq]
  have hsr : -32768 ≤ (signals q.tables d i b).sr := (wrap16_range _).1
  refine ⟨rfl, rfl, rfl, rfl, rfl, rfl, rfl, fun hpos => floatSignal_of_nonneg hpos,
    fun hneg hne => floatSignal_of_neg hneg (lt_of_le_of_ne hsr (Ne.symm hne)),
    fun hlowest => (congrArg floatSignal hlowest).trans floatSignal_lowest, rfl, decide_eq_true_iff,
    fun hds hmag => ?_⟩
  change (toFloat (signals q.tables d i b).ds (signals q.tables d i b).dqmag).encode = 0x420
  rw [hds, hmag]
  rfl

/-- Settles O50: by induction on the length; only AP moves, and with YU = YL/64 it does not reach Y. -/
theorem idleCodesDecodeToSilence : Obligations.IdleCodesDecodeToSilence :=
  fun _ sh n hb => decodeRun_idle hb sh n 0

end Sys2Proof.Proofs
end

section
/-! The default tables: a full table holds the entries of its first half alone, and what those are
(44_quantizer_tables.md R200 to R203). -/

namespace Sys2Proof.Machine

open Sys2Proof.Claims

/-- Every entry of a full table stands in its first half (44_quantizer_tables.md R200). -/
theorem mirrored_mem {half : List Int} {b i : Nat} (hb : 0 < b) (hlen : half.length = 2 ^ (b - 1)) (hi : i < 2 ^ b) :
    mirrored half b i ∈ half := by
  have htwice : 2 * 2 ^ (b - 1) = 2 ^ b := mul_pow_sub_one hb.ne' 2
  have getD_mem : ∀ {j : Nat}, j < 2 ^ (b - 1) → half.getD j 0 ∈ half := fun {j} hj => by
    rw [List.getD_eq_getElem half 0 (hlen ▸ hj)]
    exact List.getElem_mem _
  unfold mirrored
  split
  case isTrue hfirst => exact getD_mem hfirst
  case isFalse hsecond => exact getD_mem (by omega)

/-- The first halves of DQLN are as long as R200 has them: 2^(B−1). -/
theorem length_dqln_transcription {b : Nat} (hb : Mode b) :
    (Tables.transcription.mode b).dqln.length = 2 ^ (b - 1) := by
  rcases hb with rfl | rfl | rfl | rfl <;> rfl

/-- No level of R201 lies between −2048, the level of −∞, and −66. -/
theorem dqln_transcription_ge {b : Nat} (hb : Mode b) :
    ∀ x ∈ (Tables.transcription.mode b).dqln, x ≠ -2048 → -66 ≤ x := by
  rcases hb with rfl | rfl | rfl | rfl <;> decide

/-- So no entry of the full table does (R205). -/
theorem tblDqln_transcription_ge {b i : Nat} (hb : Mode b) (hi : i < 2 ^ b) :
    tblDqln Tables.transcription b i ≠ -2048 → -66 ≤ tblDqln Tables.transcription b i := by
  have hpos : 0 < b := by rcases hb with rfl | rfl | rfl | rfl <;> decide
  exact dqln_transcription_ge hb _ (mirrored_mem hpos (length_dqln_transcription hb) hi)

/-- The default of G726 is in range: its datapath, and the three entries of each of its 60 codes. -/
theorem G726.transcription_inRange : G726.transcription.InRange := by decide

end Sys2Proof.Machine
end

section
/-! The statement about the quantizer tables (44_quantizer_tables.md). -/

namespace Sys2Proof.Proofs

open Sys2Proof.Machine Sys2Proof.Claims

/-- Settles O49: the default is in range, which bounds every entry; the field widths follow from those bounds. -/
theorem tableEntriesAreInRange : Obligations.TableEntriesAreInRange := by
  refine ⟨⟨G726.transcription_inRange, rfl⟩, fun b i hb hi => ?_⟩
  obtain ⟨hdqln, hdqln', hw, hw', hf, hf'⟩ := G726.transcription_inRange.entries hb hi
  exact ⟨⟨hdqln, hdqln'⟩, tblDqln_transcription_ge hb hi, hw, hw', hf, hf',
    ⟨hdqln, hdqln'.trans_lt (by decide)⟩, ⟨le_trans (by decide) hw, hw'.trans_lt (by decide)⟩,
    hf'.trans_lt (by decide)⟩

end Sys2Proof.Proofs
end

section
/-! Host programs of one command, and the segment procedure part by part: its answer where each of its checks ends it,
the filling of BUF, the RESETs, and the decode loop (46_host_segment.md R221 to R231). -/

namespace Sys2Proof.Machine

open Sys2Proof.Claims Sys2Proof.Laws

/-! ### Host programs of one command -/

theorem runOps_cons_next {op : HostOp} {s t : State} (h : hostAccess op s = .next t) (rest : List HostOp) :
    runOps (op :: rest) s = runOps rest t := by
  simp only [runOps, h]

theorem runOps_singleton (op : HostOp) (s : State) : runOps [op] s = hostAccess op s := by
  simp only [runOps]
  cases hostAccess op s <;> rfl

theorem hostAccess_writeReg {r v : Nat} (hr : r < 64) (hv : v < 2 ^ 64) (s : State) :
    hostAccess (.writeReg r v) s = writeReg r (word v) (s.setReply none) :=
  (if_neg (Nat.not_le.mpr hr)).trans (if_neg (Nat.not_le.mpr hv))

/-- A host write of a command's word to CMD is the command (30_encoding.md R86). -/
theorem hostAccess_command {i : Instr} (hi : i.WellFormed) (s : State) :
    hostAccess (.writeReg 0 (encode i).toNat) s = exec i (s.setReply none) := by
  have hword : word (encode i).toNat = encode i := BitVec.eq_of_toNat_eq (word_toNat_of_lt (encode i).isLt)
  rw [hostAccess_writeReg (by decide) (encode i).isLt, hword]
  exact runWord_command (decode_encode hi) _

/-- s with ARG0 and ARG1 written by the host. -/
abbrev State.withOperands (a n : Nat) (s : State) : State :=
  { s with arg0 := word a, arg1 := word n, reply := none }

/-- The host program of a command with two operands runs the command on them (30_encoding.md R87). -/
theorem runOps_operands {i : Instr} (hi : i.WellFormed) {a n : Nat} (ha : a < 2 ^ 64) (hn : n < 2 ^ 64) (s : State) :
    runOps [.writeReg 2 a, .writeReg 3 n, .writeReg 0 (encode i).toNat] s = exec i (s.withOperands a n) := by
  rw [runOps_cons_next (hostAccess_writeReg (by decide) ha s), runOps_cons_next (hostAccess_writeReg (by decide) hn _),
    runOps_singleton, hostAccess_command hi]
  rfl

theorem runOps_byteRange {a n : Nat} (ha : a < 2 ^ 64) (hn : n < 2 ^ 64) (s : State) :
    runOps (Pseudo.byteRange a n).ops s = exec .byteRange (s.withOperands a n) :=
  runOps_operands (i := .byteRange) trivial ha hn s

theorem runOps_unpackInit {a n : Nat} (ha : a < 2 ^ 64) (hn : n < 2 ^ 64) (s : State) :
    runOps (Pseudo.unpackInit a n).ops s = exec .unpackInit (s.withOperands a n) :=
  runOps_operands (i := .unpackInit) trivial ha hn s

/-- The words that R87 writes out for a command with the operand CH are the sums of R80. -/
theorem shiftLeft_or_eq_sum {c op : Nat} (hc : c < 2 ^ 16) (hop : op < 2 ^ 4) :
    c <<< 16 ||| op = (BitVec.ofNat 64 (op + 0 * 2 ^ 8 + c * 2 ^ 16)).toNat := by
  rw [← Nat.shiftLeft_add_eq_or_of_lt (by omega), Nat.shiftLeft_eq, BitVec.toNat_ofNat]
  omega

theorem runOps_reset {c : Nat} (hc : c < 2 ^ 16) (s : State) :
    runOps (Pseudo.reset c).ops s = exec (.reset c) (s.setReply none) := by
  rw [← hostAccess_command (i := .reset c) hc, ← runOps_singleton]
  exact congrArg (fun w => runOps [.writeReg 0 w] s) (shiftLeft_or_eq_sum hc (by decide))

theorem runOps_decodeNext {c : Nat} (hc : c < 2 ^ 16) (s : State) :
    runOps (Pseudo.decodeNext c).ops s = exec (.decodeNext c) (s.setReply none) := by
  rw [← hostAccess_command (i := .decodeNext c) hc, ← runOps_singleton]
  exact congrArg (fun w => runOps [.writeReg 0 w] s) (shiftLeft_or_eq_sum hc (by decide))

/-! ### The answer of a segment call, check by check -/

section
variable {rd : ByteSource} {fresh : Bool} {start count : Nat} {s t : State}

/-- An empty call (46_host_segment.md R221). -/
theorem segmentDecode_empty (rd : ByteSource) (fresh : Bool) (start : Nat) (s : State) :
    segmentDecode rd fresh start 0 s = { result := .segment [] start 0, state := s, reads := [] } :=
  if_pos rfl

/-- No stream is open (46_host_segment.md R231). -/
theorem segmentDecode_closed (hcount : count ≠ 0) (hclosed : s.status.opened = false) :
    segmentDecode rd fresh start count s = { result := .failed .notReady, state := s, reads := [] } :=
  (if_neg hcount).trans (if_pos hclosed)

/-- The bytes of the range that BYTE_RANGE left in RES0 and RES1 (46_host_segment.md R224, step 2). -/
abbrev State.rangeLength (t : State) : Nat := t.res1.toNat - t.res0.toNat + 1

/-- Where the byte source holds that range (46_host_segment.md R224, step 2). -/
abbrev State.rangeOffset (t : State) : Nat := t.fmt.doff.toNat + t.res0.toNat

/-- An operand of BYTE_RANGE is refused (20_memory.md R62). -/
theorem segmentDecode_refused {r : Refusal} (hcount : count ≠ 0) (hopen : s.status.opened = true)
    (hrange : runOps (Pseudo.byteRange start count).ops s = .refused r) :
    segmentDecode rd fresh start count s = { result := .refused r, state := s, reads := [] } := by
  simp only [segmentDecode, hcount, hopen, hrange, Bool.true_eq_false, if_false]

/-- BYTE_RANGE fails: the call fails with its code (46_host_segment.md R224, step 1). -/
theorem segmentDecode_rangeFails (hcount : count ≠ 0) (hopen : s.status.opened = true)
    (hrange : runOps (Pseudo.byteRange start count).ops s = .next t) (herr : t.status.err ≠ .ok) :
    segmentDecode rd fresh start count s = { result := .failed t.status.err, state := t, reads := [] } := by
  simp only [segmentDecode, hcount, hopen, hrange, herr, ne_eq, not_false_eq_true, Bool.true_eq_false, if_false,
    if_true]

/-- The range is longer than BUF (46_host_segment.md R223). -/
theorem segmentDecode_rangeTooLong (hcount : count ≠ 0) (hopen : s.status.opened = true)
    (hrange : runOps (Pseudo.byteRange start count).ops s = .next t) (herr : t.status.err = .ok)
    (hlong : t.params.bufBytes < t.rangeLength) :
    segmentDecode rd fresh start count s = { result := .failed .capacity, state := t, reads := [] } := by
  simp only [segmentDecode, hcount, hopen, hrange, herr, hlong, ne_eq, not_true_eq_false, Bool.true_eq_false,
    if_false, if_true]

/-- The byte source fails (46_host_segment.md R224, step 2). -/
theorem segmentDecode_readFails (hcount : count ≠ 0) (hopen : s.status.opened = true)
    (hrange : runOps (Pseudo.byteRange start count).ops s = .next t) (herr : t.status.err = .ok)
    (hfits : t.rangeLength ≤ t.params.bufBytes) (hread : rd.read t.rangeOffset t.rangeLength = none) :
    segmentDecode rd fresh start count s =
      { result := .failed .ioError, state := t, reads := [(t.rangeOffset, t.rangeLength)] } := by
  simp only [segmentDecode, hcount, hopen, hrange, herr, Nat.not_lt.mpr hfits, hread, ne_eq, not_true_eq_false,
    Bool.true_eq_false, if_false]

/-- The read succeeds, and the call goes on to decode (46_host_segment.md R224, steps 3 to 6). -/
theorem segmentDecode_decodes {bytes : List Byte} (hcount : count ≠ 0) (hopen : s.status.opened = true)
    (hrange : runOps (Pseudo.byteRange start count).ops s = .next t) (herr : t.status.err = .ok)
    (hfits : t.rangeLength ≤ t.params.bufBytes) (hread : rd.read t.rangeOffset t.rangeLength = some bytes) :
    segmentDecode rd fresh start count s =
      { result := (segmentDecodeFrom fresh start count bytes t).1
        state := (segmentDecodeFrom fresh start count bytes t).2
        reads := [(t.rangeOffset, t.rangeLength)] } := by
  simp only [segmentDecode, hcount, hopen, hrange, herr, Nat.not_lt.mpr hfits, hread, ne_eq, not_true_eq_false,
    Bool.true_eq_false, if_false]

/-- A call ends before its read, with no segment, or it has made exactly one read (46_host_segment.md R231). -/
theorem segmentDecode_oneRead_or_noSegment (hcount : count ≠ 0) :
    (∃ offset len, (segmentDecode rd fresh start count s).reads = [(offset, len)]) ∨
    ∀ out a n, (segmentDecode rd fresh start count s).result ≠ .segment out a n := by
  cases hopen : s.status.opened with
  | false => exact .inr (by simp [segmentDecode_closed hcount hopen])
  | true =>
    cases hrange : runOps (Pseudo.byteRange start count).ops s with
    | fault r => cases r
    | refused r => exact .inr (by simp [segmentDecode_refused hcount hopen hrange])
    | next t =>
      by_cases herr : t.status.err = .ok
      case neg => exact .inr (by simp [segmentDecode_rangeFails hcount hopen hrange herr])
      by_cases hfits : t.rangeLength ≤ t.params.bufBytes
      case neg => exact .inr (by simp [segmentDecode_rangeTooLong hcount hopen hrange herr (Nat.not_le.mp hfits)])
      refine .inl ⟨t.rangeOffset, t.rangeLength, ?_⟩
      cases hread : rd.read t.rangeOffset t.rangeLength with
      | none => rw [segmentDecode_readFails hcount hopen hrange herr hfits hread]
      | some bytes => rw [segmentDecode_decodes hcount hopen hrange herr hfits hread]

end

/-! ### Filling BUF and starting the reader -/

/-- Bytes that lie in BUF are written, and nothing else but the reply (46_host_segment.md R223). -/
theorem runOps_writeBytes {i : Nat} {bytes : List Byte} {s : State} (hfits : i + bytes.length ≤ s.params.bufBytes) :
    ∃ m r, runOps (writeBytes i (bytes.map BitVec.toNat)) s = .next { s with buf := m, reply := r } := by
  induction bytes generalizing i s with
  | nil => exact ⟨s.buf, s.reply, rfl⟩
  | cons v rest ih =>
    rw [List.length_cons] at hfits
    have hwrite : hostAccess (.writeBuf i v.toNat) s = .next ((s.bufWrite i (BitVec.ofNat 8 v.toNat)).setReply none) :=
      (if_neg (by omega)).trans (if_neg (Nat.not_le.mpr v.isLt))
    rw [List.map_cons, writeBytes, runOps_cons_next hwrite]
    exact ih (s := (s.bufWrite i (BitVec.ofNat 8 v.toNat)).setReply none) (i := i + 1)
      (by rw [State.setReply_params, State.bufWrite_params]; omega)

/-- Bytes that fit BUF are loaded: BUF_LEN is their number (46_host_segment.md R223). -/
theorem runOps_loadOps {bytes : List Byte} {s : State} (hparams : s.params.WF)
    (hfits : bytes.length ≤ s.params.bufBytes) :
    ∃ m, runOps (loadOps bytes) s =
      .next { s with buf := m, bufLen := word bytes.length, status := okStatus s, reply := none } := by
  obtain ⟨-, -, -, hbytes⟩ := hparams
  have hlen : bytes.length < 2 ^ 64 := by omega
  obtain ⟨m, r, hwrites⟩ := runOps_writeBytes (i := 0) (by omega : 0 + bytes.length ≤ s.params.bufBytes)
  refine ⟨m, ?_⟩
  rw [loadOps, runOps_append_next hwrites, runOps_singleton, hostAccess_writeReg (by decide) hlen]
  refine congrArg Host.Outcome.next (if_neg ?_)
  rw [word_toNat_of_lt hlen]
  exact Nat.not_lt.mpr hfits

/-- UNPACK_INIT at a bit of BUF's first byte (46_host_segment.md R225). -/
theorem runOps_unpackInit_firstByte {k : Nat} (hk : k ≤ 7) (s : State) :
    runOps (Pseudo.unpackInit 0 k).ops s = .next ((s.withOperands 0 k).setCursor k).succeed := by
  have hkword : (word k).toNat = k := word_toNat_of_lt (by omega)
  have hbit : (s.withOperands 0 k).argN1 ≤ 7 := hkword.trans_le hk
  rw [runOps_unpackInit (by decide) (by omega), exec_unpackInit_of_checks hbit (Nat.zero_le _)]
  have haddr : 8 * (s.withOperands 0 k).argN0 + (s.withOperands 0 k).argN1 = k := (Nat.zero_add _).trans hkword
  rw [haddr]
  rfl

/-- The setup up to the reader start: the bytes are in BUF and CURSOR is at bit k of the first one
(46_host_segment.md R223, R225). -/
theorem runOps_fill_start {bytes : List Byte} {k : Nat} {s : State} (hparams : s.params.WF)
    (hfits : bytes.length ≤ s.params.bufBytes) (hk : k ≤ 7) :
    ∃ v, runOps (loadOps bytes ++ (Pseudo.unpackInit 0 k).ops) s = .next v ∧ v.fmt = s.fmt ∧
      v.status.opened = s.status.opened ∧ v.ready = s.ready ∧ v.cursor.toNat = k ∧ v.bufLen.toNat = bytes.length := by
  obtain ⟨m, hload⟩ := runOps_loadOps hparams hfits
  obtain ⟨-, -, -, hbytes⟩ := hparams
  refine ⟨_, (runOps_append_next hload).trans (runOps_unpackInit_firstByte hk _), rfl, rfl, rfl,
    word_toNat_of_lt (by omega), word_toNat_of_lt (by omega)⟩

/-! ### The RESETs -/

/-- The stream and the reader are as they were: what RESET and the decode loop read of them. -/
def ReaderKept (s t : State) : Prop :=
  t.fmt = s.fmt ∧ t.status.opened = s.status.opened ∧ t.cursor = s.cursor ∧ t.bufLen = s.bufLen

theorem resetOps_succ (c : Nat) : resetOps (c + 1) = resetOps c ++ (Pseudo.reset c).ops := by
  simp only [resetOps, List.range_succ, List.map_append, List.flatten_append, List.map_cons, List.map_nil,
    List.flatten_cons, List.flatten_nil, List.append_nil]

/-- The RESETs of the first c channels succeed and leave them READY (46_host_segment.md R226). -/
theorem runOps_resetOps {c : Nat} {s : State} (hopen : s.status.opened = true) (hc : c ≤ s.channels)
    (hreach : c ≤ 2 ^ 16) :
    ∃ u, runOps (resetOps c) s = .next u ∧ ReaderKept s u ∧ ∀ k, k < c → u.isReady k = true := by
  induction c with
  | zero => exact ⟨s, rfl, ⟨rfl, rfl, rfl, rfl⟩, nofun⟩
  | succ c ih =>
    obtain ⟨u, hu, ⟨hfmt, hopened, hcursor, hlen⟩, hready⟩ := ih (by omega) (by omega)
    have hcu : c < (u.setReply none).channels := by
      rw [State.channels, State.setReply_fmt, hfmt]
      exact hc
    refine ⟨(((u.setReply none).setDecoder c DecoderState.reset).markReady c).succeed, ?_,
      ⟨hfmt, hopened, hcursor, hlen⟩, fun k hk => ?_⟩
    · rw [resetOps_succ, runOps_append_next hu, runOps_reset (by omega)]
      exact exec_reset_of_checks (s := u.setReply none) (hopened.trans hopen) hcu
    · by_cases hkc : k = c
      · exact hkc ▸ State.isReady_markReady_same k _
      · exact (State.isReady_markReady_other hkc _).trans (hready k (by omega))

/-- After the RESETs, or without them in a call that continues the one before, the channels are READY
(46_host_segment.md R226, R229). -/
theorem runOps_resetsIfFresh {fresh : Bool} {s : State} (hopen : s.status.opened = true) (hreach : s.channels ≤ 2 ^ 16)
    (hready : fresh = false → ∀ c, c < s.channels → s.isReady c = true) :
    ∃ u, runOps (if fresh then resetOps s.channels else []) s = .next u ∧ ReaderKept s u ∧
      ∀ c, c < s.channels → u.isReady c = true := by
  cases fresh with
  | true => exact runOps_resetOps hopen le_rfl hreach
  | false => exact ⟨s, rfl, ⟨rfl, rfl, rfl, rfl⟩, hready rfl⟩

/-! ### The decode loop -/

/-- A stream is open, its channels are READY, and the next n codes are valid bits of BUF. -/
def CodesAhead (n : Nat) (s : State) : Prop :=
  s.status.opened = true ∧ (∀ c, c < s.channels → s.isReady c = true) ∧
  s.cursor.toNat + n * s.width ≤ 8 * s.bufLen.toNat ∧ 8 * s.bufLen.toNat < 2 ^ 64

/-- DECODE_NEXT takes the first of the codes ahead. -/
theorem CodesAhead.decodeNext {n c : Nat} {s : State} (h : CodesAhead (n + 1) s) (hc : c < s.channels) :
    ∃ u, exec (.decodeNext c) s = .next u ∧ u.status.err = .ok ∧ u.fmt = s.fmt ∧ CodesAhead n u := by
  obtain ⟨hopen, hready, hlen, hfits⟩ := h
  rw [Nat.succ_mul] at hlen
  have hcode : s.cursor.toNat + s.width ≤ 8 * s.bufLen.toNat := by omega
  have hexec := exec_decodeNext_of_checks hopen hc (hready c hc) hcode
  refine ⟨_, hexec, rfl, rfl, hopen, hready, ?_, hfits⟩
  have hcursor : (word (s.cursor.toNat + s.width)).toNat = s.cursor.toNat + s.width :=
    word_toNat_of_lt (hcode.trans_lt hfits)
  change (word (s.cursor.toNat + s.width)).toNat + n * s.width ≤ 8 * s.bufLen.toNat
  rw [hcursor]
  omega

/-- With n codes ahead the loop takes n samples (46_host_segment.md R224, step 5). -/
theorem decodeLoop_of_codesAhead {n t : Nat} {out : List (BitVec 16)} {s : State} (h : CodesAhead n s)
    (hpos : 0 < s.channels) (hreach : s.channels ≤ 2 ^ 16) :
    ∃ samples u, decodeLoop s.channels n t out s = (.segment [] 0 0, samples, u) ∧
      samples.length = out.length + n := by
  induction n generalizing t out s with
  | zero => exact ⟨out, s, rfl, rfl⟩
  | succ n ih =>
    have hchannel : t % s.channels < s.channels := Nat.mod_lt t hpos
    obtain ⟨u, hu, herr, hfmt, hahead⟩ := CodesAhead.decodeNext (s := s.setReply none) h hchannel
    have hchannels : u.channels = s.channels := congrArg (·.ch.toNat) hfmt
    obtain ⟨samples, v, hloop, hcount⟩ := ih (t := t + 1) (out := out ++ [u.res0.setWidth 16]) hahead
      (hchannels ▸ hpos) (hchannels ▸ hreach)
    refine ⟨samples, v, ?_, ?_⟩
    · rw [decodeLoop, runOps_decodeNext (hchannel.trans_le hreach), hu]
      simp only [herr, if_true]
      exact hchannels ▸ hloop
    · rw [hcount, List.length_append, List.length_singleton]
      omega

/-! ### A call whose read succeeded -/

/-- The bytes from the one that holds bit lo to the one that holds the last of the bits from lo on hold them all. -/
theorem rangeBits_le_coveringBytes {lo bits : Nat} (hbits : 0 < bits) :
    lo % 8 + bits ≤ 8 * ((lo + bits - 1) / 8 - lo / 8 + 1) := by
  omega

/-- The host operations between the read and the decode loop (46_host_segment.md R223, R225, R226, R229). -/
def segmentSetup (fresh : Bool) (start : Nat) (bytes : List Byte) (s : State) : List HostOp :=
  loadOps bytes ++ (Pseudo.unpackInit 0 ((start * s.channels * s.width) % 8)).ops
    ++ (if fresh then resetOps s.channels else [])

/-- The setup and the loop complete: the call returns the samples taken. -/
theorem segmentDecodeFrom_segment {fresh : Bool} {start count : Nat} {bytes : List Byte} {s t u : State}
    {samples : List (BitVec 16)} (hsetup : runOps (segmentSetup fresh start bytes s) s = .next t)
    (hloop : decodeLoop s.channels (count * s.channels) 0 [] t = (.segment [] 0 0, samples, u)) :
    segmentDecodeFrom fresh start count bytes s = (.segment samples start count, u) := by
  unfold segmentSetup at hsetup
  simp only [segmentDecodeFrom, hsetup, hloop]

section
variable {fresh : Bool} {start count : Nat} {bytes : List Byte} {s : State}
variable (hparams : s.params.WF) (hopen : s.status.opened = true) (hreach : s.channels ≤ 2 ^ 16)
variable (hready : fresh = false → ∀ c, c < s.channels → s.isReady c = true)
variable (hfits : bytes.length ≤ s.params.bufBytes)
variable (hbits : start * s.channels * s.width % 8 + count * s.channels * s.width ≤ 8 * bytes.length)
include hparams hopen hreach hready hfits hbits

/-- The setup leaves the call's count·C codes ahead (46_host_segment.md R227). -/
theorem runOps_segmentSetup :
    ∃ u, runOps (segmentSetup fresh start bytes s) s = .next u ∧ u.fmt = s.fmt ∧
      CodesAhead (count * s.channels) u := by
  obtain ⟨v, hfill, hfmt, hopened, hkept, hcursor, hlen⟩ := runOps_fill_start hparams hfits
    (by omega : start * s.channels * s.width % 8 ≤ 7)
  have hchannels : v.channels = s.channels := congrArg (·.ch.toNat) hfmt
  have hvready : fresh = false → ∀ c, c < v.channels → v.isReady c = true := by
    simpa only [hchannels, State.isReady, hkept] using hready
  obtain ⟨u, hreset, ⟨hufmt, huopened, hucursor, hulen⟩, huready⟩ :=
    runOps_resetsIfFresh (hopened.trans hopen) (hchannels ▸ hreach) hvready
  have hall := hufmt.trans hfmt
  have hwidth : u.width = s.width := congrArg (·.bps.toNat) hall
  refine ⟨u, ?_, hall, huopened.trans (hopened.trans hopen), ?_, ?_, ?_⟩
  · rw [segmentSetup, runOps_append_next hfill, ← hchannels]
    exact hreset
  · rw [State.channels, hufmt]
    exact huready
  · rw [hucursor, hcursor, hulen, hlen, hwidth]
    exact hbits
  · obtain ⟨-, -, -, hbytes⟩ := hparams
    rw [hulen, hlen]
    omega

/-- Once the bytes of the range are in hand the call returns the whole segment (46_host_segment.md R227, R228). -/
theorem segmentDecodeFrom_of_bytes (hpos : 0 < s.channels) :
    ∃ out, (segmentDecodeFrom fresh start count bytes s).1 = .segment out start count ∧
      out.length = count * s.channels := by
  obtain ⟨u, hsetup, hfmt, hahead⟩ := runOps_segmentSetup hparams hopen hreach hready hfits hbits
  have hchannels : u.channels = s.channels := congrArg (·.ch.toNat) hfmt
  obtain ⟨samples, v, hloop, hlength⟩ := decodeLoop_of_codesAhead (t := 0) (out := []) hahead
    (hchannels ▸ hpos) (hchannels ▸ hreach)
  refine ⟨samples, ?_, hlength.trans (Nat.zero_add _)⟩
  rw [segmentDecodeFrom_segment hsetup (hchannels ▸ hloop)]

end

/-- A read that succeeds gives as many bytes as were asked for (20_memory.md R72). -/
theorem ByteSource.length_of_read {rd : ByteSource} {offset len : Nat} {bytes : List Byte}
    (h : rd.read offset len = some bytes) : bytes.length = len := by
  unfold ByteSource.read at h
  split at h
  · split at h
    · exact Option.some.inj h ▸ ‹_›
    · cases h
  · cases h

/-- The host's BYTE_RANGE succeeds, or fails with one of two codes, and keeps the block's parameters, the stream and
READY (41_translator.md R124). -/
theorem runOps_byteRange_next {a n : Nat} (ha : a < 2 ^ 64) (hn : n < 2 ^ 64) (s : State) :
    ∃ t, runOps (Pseudo.byteRange a n).ops s = .next t ∧
      (t.status.err = .ok ∨ t.status.err = .notReady ∨ t.status.err = .outOfRange) ∧
      t.params = s.params ∧ t.fmt = s.fmt ∧ t.status.opened = s.status.opened ∧ t.ready = s.ready := by
  obtain ⟨t, hexec, -⟩ := (exec_endsWith .byteRange (s.withOperands a n)).exists_next
  refine ⟨t, (runOps_byteRange ha hn s).trans hexec, ?_, ?_⟩
  · rcases execByteRange_cases (s.withOperands a n) with hfail | ⟨-, -, -, heq⟩
    · obtain ⟨hmem, -⟩ := hfail.of_next hexec
      exact .inr (by simpa using hmem)
    · obtain rfl := (finish_next _ t).mp (heq.symm.trans hexec)
      exact .inl rfl
  · obtain ⟨_, _, _, _, _, rfl⟩ := exec_translator_onlyResultsWritten (.inr (.inr (.inr rfl))) _ t hexec
    exact ⟨rfl, rfl, rfl, rfl⟩

/-- The range that BYTE_RANGE leaves covers the codes of the n samples from sample a on, counted from the bit offset of
the first one (41_translator.md R126). -/
theorem runOps_byteRange_covers {a n : Nat} {s t : State} (ha : a < 2 ^ 64) (hn : n < 2 ^ 64)
    (h : runOps (Pseudo.byteRange a n).ops s = .next t) (herr : t.status.err = .ok) :
    a * t.channels * t.width % 8 + n * t.channels * t.width ≤ 8 * t.rangeLength := by
  obtain ⟨hcount, htotal, rfl⟩ := exec_byteRange_ok ((runOps_byteRange ha hn s).symm.trans h) herr
  obtain ⟨hlo, hhi⟩ := State.rangeBits_of_le_totalFrames hcount htotal
  obtain ⟨hfirst, hlast, -⟩ := word_coveringBytes_toNat hlo hhi
  have haword : (s.withOperands a n).argN0 = a := word_toNat_of_lt ha
  have hnword : (s.withOperands a n).argN1 = n := word_toNat_of_lt hn
  rw [State.rangeLength, State.succeed_res0, State.succeed_res1, State.setRes1_res0, State.setRes1_res1,
    State.setRes0_res0, hfirst, hlast]
  rw [haword, hnword, Nat.add_mul, Nat.add_mul] at hlo ⊢
  exact rangeBits_le_coveringBytes (Nat.lt_add_right_iff_pos.mp hlo)

end Sys2Proof.Machine
end

section
/-! The statements about the host segment procedure (46_host_segment.md). -/

namespace Sys2Proof.Proofs

open Sys2Proof.Machine Sys2Proof.Claims

/-- Settles O59: a call with a segment made its read, and the two checks before the read end a call with none. -/
theorem segmentCallsReadExactlyOnce : Obligations.SegmentCallsReadExactlyOnce := by
  intro rd fresh start count s hcount
  refine ⟨fun out a n hsegment => ?_, fun hclosed => ?_, fun u hrange hends => ?_⟩
  · rcases segmentDecode_oneRead_or_noSegment hcount with hread | hnone
    · exact hread
    · exact absurd hsegment (hnone out a n)
  · rw [segmentDecode_closed hcount hclosed]
  · cases hopen : s.status.opened with
    | false => rw [segmentDecode_closed hcount hopen]
    | true =>
      by_cases herr : u.status.err = .ok
      · rw [segmentDecode_rangeTooLong hcount hopen hrange herr (hends.resolve_left (not_not_intro herr))]
      · rw [segmentDecode_rangeFails hcount hopen hrange herr]

/-- Settles O60: the checks before the read fail with one of the four errors; once the bytes are in hand BUF holds every
code of the range and every channel is READY, so that the loop takes them all. -/
theorem segmentCallsFailOnlyWithTheFourErrors : Obligations.SegmentCallsFailOnlyWithTheFourErrors := by
  intro rd fresh start count s hinv hreach hstart hcount hready
  by_cases hempty : count = 0
  · subst hempty
    rw [segmentDecode_empty]
    exact .inl ⟨[], rfl, (Nat.zero_mul _).symm⟩
  cases hopen : s.status.opened with
  | false =>
    rw [segmentDecode_closed hempty hopen]
    exact .inr ⟨.notReady, rfl, .inl rfl⟩
  | true =>
    obtain ⟨hparams, -, hfmt, -, -⟩ := hinv
    obtain ⟨-, (hpos : 0 < s.fmt.ch.toNat), -⟩ := hfmt.1 hopen
    obtain ⟨t, hrange, hcode, hkept, hsame, hopened, hreadies⟩ := runOps_byteRange_next hstart hcount s
    by_cases herr : t.status.err = .ok
    case neg =>
      rw [segmentDecode_rangeFails hempty hopen hrange herr]
      exact .inr ⟨_, rfl, (hcode.resolve_left herr).imp_right .inl⟩
    by_cases hfits : t.rangeLength ≤ t.params.bufBytes
    case neg =>
      rw [segmentDecode_rangeTooLong hempty hopen hrange herr (Nat.not_le.mp hfits)]
      exact .inr ⟨.capacity, rfl, .inr (.inr (.inl rfl))⟩
    cases hread : rd.read t.rangeOffset t.rangeLength with
    | none =>
      rw [segmentDecode_readFails hempty hopen hrange herr hfits hread]
      exact .inr ⟨.ioError, rfl, .inr (.inr (.inr rfl))⟩
    | some bytes =>
      have hlength := ByteSource.length_of_read hread
      have htready : fresh = false → ∀ c, c < t.channels → t.isReady c = true := by
        simpa only [State.channels, State.isReady, hsame, hreadies] using hready
      rw [segmentDecode_decodes hempty hopen hrange herr hfits hread]
      rw [← hsame] at hreach hpos ⊢
      exact .inl (segmentDecodeFrom_of_bytes (hkept ▸ hparams) (hopened.trans hopen) hreach htready
        (hlength.trans_le hfits) (hlength ▸ runOps_byteRange_covers hstart hcount hrange herr) hpos)

/-- Settles O58: the procedure's first check. -/
theorem emptySegmentTouchesNothing : Obligations.EmptySegmentTouchesNothing := segmentDecode_empty

end Sys2Proof.Proofs
end

section
/-! What one write of CMD or BUF_LEN, and a sequence of them, leaves in STATUS (60_exceptions.md R242, R243). -/

namespace Sys2Proof.Machine

/-- The two ways an access that writes STATUS.ERR ends: it fails and changes STATUS alone, or it succeeds and keeps
STICKY. -/
def FailsOrKeepsSticky (s t : State) : Prop :=
  (t.status.err ≠ .ok ∧ t = s.fail t.status.err) ∨ (t.status.err = .ok ∧ t.status.sticky = s.status.sticky)

namespace FailsOrKeepsSticky

variable {s t : State}

theorem fail {e : ErrCode} (he : e ≠ .ok) : FailsOrKeepsSticky s (s.fail e) := .inl ⟨he, rfl⟩

theorem eq_fail (h : FailsOrKeepsSticky s t) (herr : t.status.err ≠ .ok) : t = s.fail t.status.err := by
  rcases h with ⟨-, heq⟩ | ⟨hok, -⟩
  · exact heq
  · exact absurd hok herr

theorem sticky_iff (h : FailsOrKeepsSticky s t) :
    t.status.sticky = true ↔ s.status.sticky = true ∨ t.status.err ≠ .ok := by
  rcases h with ⟨herr, heq⟩ | ⟨hok, hsticky⟩
  · exact iff_of_true (heq ▸ rfl) (.inr herr)
  · simp [hok, hsticky]

end FailsOrKeepsSticky

theorem exec_failsOrKeepsSticky {i : Instr} {s t : State} (h : exec i s = .next t) : FailsOrKeepsSticky s t := by
  rcases exec_next_status h with ⟨e, he, -, rfl⟩ | ⟨hok, hsticky, -⟩
  · exact .fail he
  · exact .inr ⟨hok, hsticky⟩

theorem runWord_failsOrKeepsSticky {w : Word} {s t : State} (h : runWord w s = .next t) : FailsOrKeepsSticky s t := by
  cases hdec : decode w with
  | command i => exact exec_failsOrKeepsSticky ((runWord_command hdec s).symm.trans h)
  | illegal why =>
    obtain rfl := (failWith_next _ s t).mp ((runWord_illegal hdec s).symm.trans h)
    exact .fail nofun

theorem writeBufLen_failsOrKeepsSticky (v : Word) (s : State) : FailsOrKeepsSticky s (s.writeBufLen v) := by
  rcases s.writeBufLen_cases v with ⟨-, heq⟩ | ⟨-, heq⟩
  · exact heq ▸ .fail nofun
  · exact heq ▸ .inr ⟨rfl, rfl⟩

end Sys2Proof.Machine

namespace Sys2Proof.Claims

open Sys2Proof.Machine

/-- No write of CMD or BUF_LEN is left without a next state. -/
theorem Checked.run_completes (a : Checked) (s : State) : ∃ t, a.run s = some t ∧ FailsOrKeepsSticky s t := by
  cases a with
  | command w =>
    obtain ⟨t, ht⟩ := runWord_completes w s
    exact ⟨t, by simp only [Checked.run, ht], runWord_failsOrKeepsSticky ht⟩
  | bufLen v => exact ⟨_, rfl, writeBufLen_failsOrKeepsSticky v s⟩

theorem runAll_cons {a : Checked} {rest : List Checked} {s t u : State} {errs : List ErrCode}
    (ha : a.run s = some t) (hrest : runAll rest t = some (errs, u)) :
    runAll (a :: rest) s = some (t.status.err :: errs, u) := by
  simp only [runAll, ha, hrest]

/-- A sequence of such writes completes: ERR is the last code, or what it was where there is none, and STICKY collects
the failures. -/
theorem runAll_status (as : List Checked) (s : State) :
    ∃ (errs : List ErrCode) (t : State), runAll as s = some (errs, t) ∧ errs.length = as.length ∧
      errs.getLastD s.status.err = t.status.err ∧
      (t.status.sticky = true ↔ s.status.sticky = true ∨ ∃ e ∈ errs, e ≠ .ok) := by
  induction as generalizing s with
  | nil => exact ⟨[], s, rfl, rfl, rfl, by simp⟩
  | cons a rest ih =>
    obtain ⟨t, hrun, hends⟩ := a.run_completes s
    obtain ⟨errs, u, hall, hlen, hlast, hcollects⟩ := ih t
    refine ⟨t.status.err :: errs, u, runAll_cons hrun hall, congrArg (· + 1) hlen, ?_, ?_⟩
    · rw [List.getLastD_cons, hlast]
    · rw [hcollects, hends.sticky_iff, or_assoc, List.exists_mem_cons_iff]

end Sys2Proof.Claims
end

section
/-! The statements about how commands end (60_exceptions.md). -/

namespace Sys2Proof.Proofs

open Sys2Proof.Machine Sys2Proof.Claims

/-- Settles O15: a failed command, or word, is `fail` on the state before it. -/
theorem failedCommandsChangeOnlyStatus : Obligations.FailedCommandsChangeOnlyStatus :=
  ⟨fun _ _ _ h => (exec_failsOrKeepsSticky h).eq_fail, fun _ _ _ h => (runWord_failsOrKeepsSticky h).eq_fail⟩

/-- Settles O16: what one command does to STATUS, and by induction what a sequence of writes does. -/
theorem successfulCommandsKeepSticky : Obligations.SuccessfulCommandsKeepSticky := by
  refine ⟨fun i s hchecks => ?_, fun as s => ?_⟩
  · obtain ⟨t, ht, herr⟩ := exec_succeeds hchecks
    exact ⟨t, ht, herr, by simpa [hchecks] using exec_sticky ht⟩
  · obtain ⟨errs, t, hall, hlen, hlast, hcollects⟩ := runAll_status as s
    refine ⟨errs, t, hall, hlen, fun hne => ?_, hcollects⟩
    have herrs : errs ≠ [] := List.ne_nil_of_length_pos (hlen ▸ List.length_pos_of_ne_nil hne)
    obtain ⟨e, hget⟩ := Option.isSome_iff_exists.mp (List.getLast?_isSome.mpr herrs)
    rw [← hlast, List.getLastD_eq_getLast?, hget, Option.getD_some]

/-- Settles O17: every command makes the table's checks in its order, and an illegal word is `fail`. -/
theorem firstFailingCheckIsReported : Obligations.FirstFailingCheckIsReported :=
  ⟨fun i s => (exec_endsWith i s).exists_next, fun s _ _ hdec => runWord_illegal hdec s⟩

end Sys2Proof.Proofs
end

section
/-! Hardware reset (70_reset_and_hazards.md section 1): power-on reads as the reset state of the same parameters. -/

namespace Sys2Proof.Machine

open Sys2Proof.Claims

/-- The register map after hardware reset (70_reset_and_hazards.md R260): the two capacities, and 0 elsewhere. -/
theorem registerValue_resetWith (p : Params) (r : Nat) :
    registerValue (State.resetWith p) r = if r = 16 then p.bufBytes else if r = 17 then p.maxCh else 0 := by
  by_cases hlow : r < 16
  · interval_cases r <;> rfl
  · have hskip : ∀ k < 16, r ≠ k := fun k hk => by omega
    simp [registerValue, hskip, State.resetWith]

/-- A later power-on leaves the registers as the first one did. -/
theorem State.powerOn_readReg (r : Nat) (s : State) : s.powerOn.readReg r = (State.resetWith s.params).readReg r := rfl

theorem resetWith_readReg_toNat {p : Params} (hp : p.WF) (r : Nat) :
    ((State.resetWith p).readReg r).toNat = if r = 16 then p.bufBytes else if r = 17 then p.maxCh else 0 :=
  (readReg_toNat hp r).trans (registerValue_resetWith p r)

/-- The invariant does not read the power-on count, so the first power-on meets it as a later one does. -/
theorem State.Inv.resetWith {p : Params} (hp : p.WF) : (State.resetWith p).Inv :=
  State.Inv.powerOn (s := .resetWith p) hp

/-- The free capacities are drawn from ranges that R8 and the register widths allow. -/
theorem configParams_wf : Config.params.WF := by
  have hch := Config.extraChannels.isLt
  have hbuf := Config.extraBufBytes.isLt
  simp only [Params.WF, Config.params]
  omega

end Sys2Proof.Machine
end

section
/-! The statements about hardware reset (70_reset_and_hazards.md). -/

namespace Sys2Proof.Proofs

open Sys2Proof.Machine

/-- Settles O52: the reset state meets the invariant where its parameters are legal, and the block's are. -/
theorem resetSatisfiesTheInvariant : Obligations.ResetSatisfiesTheInvariant :=
  ⟨fun _ hp => .resetWith hp, configParams_wf, .resetWith configParams_wf⟩

/-- Settles O53: both power-ons read as the reset state, whose register map is known. -/
theorem hardwareResetValues : Obligations.HardwareResetValues := by
  refine ⟨rfl, fun p s t hp ht => ?_⟩
  obtain ⟨hread, hready, hparams⟩ :
      (∀ r, t.readReg r = (State.resetWith p).readReg r) ∧ (∀ c, t.isReady c = false) ∧ t.params = p := by
    rcases ht with rfl | ⟨rfl, rfl⟩
    · exact ⟨fun _ => rfl, fun _ => rfl, rfl⟩
    · exact ⟨fun r => s.powerOn_readReg r, fun _ => rfl, rfl⟩
  simp only [hread, resetWith_readReg_toNat hp]
  refine ⟨fun r hr => ?_, rfl, rfl, fun r hr _ => ?_, hready, hparams⟩
  all_goals rw [if_neg (by omega), if_neg (by omega)]

end Sys2Proof.Proofs
end
